-- ==== Sys2Proof/Word.lean ====
section
/-! DEFINITION. The word types of the core and nothing else (00_scope.md R8). -/

namespace Sys2Proof

/-- One byte of a byte string (R8). -/
abbrev Byte := BitVec 8

/-- A byte string of any finite length, first byte at the head (R8). -/
abbrev Bytes := List Byte

/-- A 128-bit block, an unsigned integer whose bit 0 is the least significant (R8, R9). -/
abbrev Block := BitVec 128

/-- An unsigned 64-bit integer; arithmetic wraps modulo 2^64 (R8). -/
abbrev U64 := BitVec 64

/-- The 32-bit command word W, the core's only control input (30_encoding.md R71). -/
abbrev CmdWord := BitVec 32

end Sys2Proof
end

