-- ==== Sys2Proof/Config.lean ====
section
/-! DEFINITION. What an implementation fixes: the parameters of 00_scope.md R6 and the block
cipher, which is a parameter without a body (R7). -/

namespace Sys2Proof

/-- The opaque handle of a bound key (00_scope.md R6, 10_state.md R23). The core never looks inside
it. A number stands for it, which loses no generality: `BC.bind` is a function of a finite byte
string, so it has at most countably many results (log 2). -/
structure KeyHandle where
  token : Nat
deriving DecidableEq, Repr, Inhabited

namespace Config

/-- `BC.bind`, which binds raw key bytes (R6, R58). It has no body: every statement about the
model holds whatever block cipher stands beside the core (R7, log 2). -/
opaque bcBind : Bytes → KeyHandle

/-- `BC.enc`, one block encryption under a bound key: a function of the handle and the block alone
(R7). It has no body (log 2). -/
opaque bcEnc : KeyHandle → Block → Block

/-- KEY_BYTES of R6: the legal key lengths in bytes. -/
def keyBytes : List Nat := [16, 24, 32]

/-- IV_FAST_BYTES of R6: the IV length that takes the direct path. -/
def ivFastBytes : Nat := 12

/-- The smallest and the largest of TAG_BYTES of R6. -/
def minTagBytes : Nat := 4

/-- See `minTagBytes`. -/
def maxTagBytes : Nat := 16

end Config

end Sys2Proof
end

