-- ==== Sys2Proof/Syntax.lean ====
section
/-! DEFINITION. The instructions: one constructor per row of spec/opcode_table.json
(30_encoding.md R75, R76). -/

namespace Sys2Proof

/-- The five commands of the core. The byte strings a command works on are not part of its word:
they arrive on operand channels beside it (30_encoding.md R70, R72, R79). -/
inductive Instr where
  /-- BIND_KEY (43_context_commands.md R161). -/
  | bindKey
  /-- START.ENC (R166). -/
  | startEnc
  /-- START.DEC (R167). -/
  | startDec
  /-- UPDATE (R170). -/
  | update
  /-- FINISH with its tag length in bytes (R176); the word carries 0 to 31 (30_encoding.md R74). -/
  | finish (tagLen : Nat)
deriving DecidableEq, Repr

end Sys2Proof
end

