-- ==== Sys2Proof/Machine/State.lean ====
section
/-! DEFINITION. The machine's state: every register of 10_state.md, the port through which the
host sees the core (30_encoding.md R70, R72), and what the host will still put there. -/

namespace Sys2Proof.Machine

/-- The four context states of 10_state.md R22. -/
inductive CtxState where
  | uninitialized
  | keyBound
  | active
  | finalized
deriving DecidableEq, Repr

/-- The operation direction of 10_state.md R25. -/
inductive Direction where
  | encrypt
  | decrypt
deriving DecidableEq, Repr

/-- The status a command returns (60_exceptions.md R201). -/
inductive Status where
  /-- The command has its effect. -/
  | ok
  /-- BIND_KEY with a key of another length than 16, 24 or 32 bytes. -/
  | invalidKeyLength
  /-- The command is not legal in the present context state. -/
  | invalidState
  /-- FINISH with a tag length outside 4 to 16, or a supplied tag of another length. -/
  | invalidTagLength
  /-- FINISH of a Decrypt operation whose tag differs. -/
  | authenticationFailure
  /-- The command word does not decode. -/
  | illegalCommand
deriving DecidableEq, Repr

/-- The operand channels of one command (30_encoding.md R70, R72). -/
structure Channels where
  key : Bytes
  iv : Bytes
  aad : Bytes
  din : Bytes
  tagin : Bytes
deriving DecidableEq, Repr

/-- All channels empty. -/
def Channels.empty : Channels := ⟨[], [], [], [], []⟩

/-- The response of one command: its status and the result channels (30_encoding.md R70, R72). -/
structure Response where
  status : Status
  dout : Bytes
  tagout : Bytes
deriving DecidableEq, Repr

/-- One command transaction as the host issues it: the word W and the operand channels
(30_encoding.md R70). -/
structure Command where
  word : CmdWord
  chan : Channels
deriving DecidableEq, Repr

/-- What the host can do to the core's port. -/
inductive Event where
  /-- The host issues one command and waits for its response (70_reset_and_hazards.md R240). -/
  | command (c : Command)
  /-- The host applies hardware reset, perhaps while a command is in progress, which it then cuts
  short (R231). -/
  | hardwareReset (cut : Option Command)
  /-- Two agents issue commands that overlap (R240). -/
  | overlapping (first second : Command)
deriving DecidableEq, Repr

/-- The state of the core. The first thirteen fields are the registers of 10_state.md R38, in its
order; then the port; then what is the model's own. -/
structure State where
  /-- CTX_STATE (R22). -/
  ctxState : CtxState
  /-- KH, or NONE (R23). -/
  kh : Option KeyHandle
  /-- H, the hash subkey (R24). -/
  h : Block
  /-- DIR (R25). -/
  dir : Direction
  /-- J0, the initial counter block (R26). -/
  j0 : Block
  /-- CTR, the block the next keystream block is encrypted from (R27). -/
  ctr : Block
  /-- KS_BUF, the last keystream block (R28). -/
  ksBuf : Block
  /-- KS_POS, the index of its next unused byte, 16 when none is left (R28). -/
  ksPos : Fin 17
  /-- Y, the GHASH accumulator (R29). -/
  y : Block
  /-- GH_BUF, the sixteen-byte register of the partial block (R30). -/
  ghBuf : Vector Byte 16
  /-- GH_FILL, how many of its bytes are in use (R30). -/
  ghFill : Fin 16
  /-- AAD_BITS (R31). -/
  aadBits : U64
  /-- CT_BITS (R32). -/
  ctBits : U64
  /-- The operand channels of the command at the port (30_encoding.md R72; log 5). -/
  chan : Channels
  /-- The response most recently delivered, none where there is none (30_encoding.md R70; log 4). -/
  resp : Option Response
  /-- The MODEL's own: what the host will still put on the port, oldest first (log 1). -/
  pending : List Event
  /-- MAX_OPERAND_BYTES (00_scope.md R6), a parameter of the implementation: none is unbounded.
  No step changes it (log 6). -/
  maxOperandBytes : Option Nat
deriving DecidableEq, Repr

/-- Why the machine stops with a fault. -/
inductive Fault where
  /-- Raised by UPDATE and FINISH when the context is Active and KH is NONE, a state that
  10_state.md R23 rules out and no run from reset reaches: the spec gives `BC.enc(NONE, v)` no
  meaning. Safe: the model stops and claims nothing (log 9). -/
  | noKeyHandle
deriving DecidableEq, Repr

/-- Why the machine refuses to go on. -/
inductive Refusal where
  /-- Raised by exec for an instruction that has no meaning in the model. Safe. -/
  | notModelled (mnemonic : String)
  /-- Raised by a command that reads an operand longer than MAX_OPERAND_BYTES, where the
  implementation sets that bound: such an operand "has no step" (20_memory.md R51). Safe. -/
  | operandTooLong
  /-- Raised by step when two commands overlap, to which the core gives no meaning
  (70_reset_and_hazards.md R240, 20_memory.md R59). Safe. -/
  | overlappingCommands
deriving DecidableEq, Repr

/-- Sixteen 0x00 bytes, the cleared GH_BUF (R30, R33). -/
def zeroBuf : Vector Byte 16 := Vector.replicate 16 0x00#8

/-- The machine right after hardware reset (70_reset_and_hazards.md R230): every register as the
table lists it, nothing at the port, and the operand bound at its default, unbounded (R6). -/
def State.reset : State where
  ctxState := .uninitialized
  kh := none
  h := 0#128
  dir := .encrypt
  j0 := 0#128
  ctr := 0#128
  ksBuf := 0#128
  ksPos := 16
  y := 0#128
  ghBuf := zeroBuf
  ghFill := 0
  aadBits := 0#64
  ctBits := 0#64
  chan := Channels.empty
  resp := none
  pending := []
  maxOperandBytes := none

end Sys2Proof.Machine
end

