-- ==== Sys2Proof/Machine/Ops.lean ====
section
/-! DEFINITION. The operations every command shares: answering, failing, clearing the operation
registers, and hardware reset. The core has no trap (60_exceptions.md R200, R207): `State.fail` is
what stands in the place of taking an exception, and there is no return from one (R208). -/

namespace Sys2Proof.Machine

/-- `CTX_STATE` as a number (10_state.md R22, decision D35). The host cannot see it (R37). -/
def CtxState.code : CtxState → Nat
  | .uninitialized => 0
  | .keyBound => 1
  | .active => 2
  | .finalized => 3

/-- DIR as one bit (10_state.md R25, 30_encoding.md R73). -/
def Direction.code : Direction → BitVec 1
  | .encrypt => 0#1
  | .decrypt => 1#1

/-- The 4-bit status code (60_exceptions.md R201); 6 to 15 are the code of no status. -/
def Status.code : Status → BitVec 4
  | .ok => 0#4
  | .invalidKeyLength => 1#4
  | .invalidState => 2#4
  | .invalidTagLength => 3#4
  | .authenticationFailure => 4#4
  | .illegalCommand => 5#4

/-- A command ends with a status and its results (00_scope.md R12 `return`, 30_encoding.md R70). -/
def State.respond (s : State) (status : Status) (dout tagout : Bytes) : State :=
  { s with resp := some ⟨status, dout, tagout⟩ }

/-- A command ends at once with a status: no register is written and the results are empty
(00_scope.md R12 `fail`, 60_exceptions.md R200, R204). -/
def State.fail (s : State) (status : Status) : State := s.respond status [] []

/-- `ClearOp()`: every operation register takes its cleared value (10_state.md R33). -/
def State.clearOp (s : State) : State :=
  { s with
    dir := .encrypt
    j0 := 0#128
    ctr := 0#128
    ksBuf := 0#128
    ksPos := 16
    y := 0#128
    ghBuf := zeroBuf
    ghFill := 0
    aadBits := 0#64
    ctBits := 0#64 }

/-- Hardware reset (70_reset_and_hazards.md R230, R231): every register at its reset value, no
response, nothing at the port. What the host will still do, and the implementation's operand
bound, are not the core's to reset (log 8). -/
def State.hardwareReset (s : State) : State :=
  { State.reset with pending := s.pending, maxOperandBytes := s.maxOperandBytes }

end Sys2Proof.Machine
end

