-- ==== Sys2Proof/Machine/Blocks.lean ====
section
/-! DEFINITION. Bytes and blocks: the conversions of 00_scope.md R10, R11, R13 and the byte order
of 20_memory.md R53. -/

namespace Sys2Proof.Machine

/-- `g(v, i)`: GCM bit i of a block, the coefficient of x^i (00_scope.md R10, log 15). -/
def gcmBit (v : Block) (i : Nat) : Bool := v.getLsbD (127 - i)

/-- `blk(b)` for a 16-byte string: its first byte is the most significant (R11, R53 (a)). -/
def blk (b : Bytes) : Block :=
  b.foldl (fun acc x => (acc <<< 8) ||| x.setWidth 128) 0#128

/-- Byte k of `bytes16(v)`, `v[127 - 8k : 120 - 8k]` (R11). -/
def blockByte (v : Block) (k : Nat) : Byte := v.extractLsb' (120 - 8 * k) 8

/-- `bytes16(v)`: the sixteen bytes of a block, most significant first (R11). -/
def bytes16 (v : Block) : Bytes := (List.range 16).map (blockByte v)

/-- `pad16(b)`: b and the fewest zero bytes that make its length a multiple of 16 (R11). -/
def pad16 (b : Bytes) : Bytes := b ++ List.replicate ((16 - b.length % 16) % 16) 0x00#8

/-- The 16-byte piece number k of a byte string. -/
def piece16 (b : Bytes) (k : Nat) : Bytes := (b.drop (16 * k)).take 16

/-- `blocks(b)`: the blocks of the consecutive 16-byte pieces of `pad16(b)`, empty for an empty b
(R11). -/
def blocks (b : Bytes) : List Block :=
  (List.range ((pad16 b).length / 16)).map (fun k => blk (piece16 (pad16 b) k))

/-- The blocks of the whole 16-byte pieces of b, without padding: what the accumulator has folded
of a ciphertext b (10_state.md R35). -/
def fullBlocks (b : Bytes) : List Block :=
  (List.range (b.length / 16)).map (fun k => blk (piece16 b k))

/-- `bitlen(b)`: the bit length of a byte string, modulo 2^64 (R13). -/
def bitlen (b : Bytes) : U64 := BitVec.ofNat 64 (8 * b.length)

/-- Two 64-bit fields of a length block, the first in the more significant half
(20_memory.md R53 (b)). -/
def lengthBlock (hi lo : U64) : Block := hi ++ lo

/-- `prefix(b, n)`: the first n bytes of b (R11). -/
def firstBytes (b : Bytes) (n : Nat) : Bytes := b.take n

end Sys2Proof.Machine
end

