-- ==== Sys2Proof/Machine/Tag.lean ====
section
/-! DEFINITION. The tag finalizer and verifier (44_tag.md). -/

namespace Sys2Proof.Machine

/-- `TAG_FULL(S)` = BC.enc(KH, J0) ⊕ S (R190). -/
def tagFull (enc : Block → Block) (j0 s : Block) : Block := enc j0 ^^^ s

/-- `TRUNC(T, n)`: the leading n bytes of the tag (R191, 20_memory.md R53 (e)). -/
def trunc (t : Block) (n : Nat) : Bytes := firstBytes (bytes16 t) n

/-- `TAG_EQ(a, b)` for strings of one length: the reference form, which reads every byte (R192). -/
def tagEq (a b : Bytes) : Bool :=
  (List.zipWith (fun x y => x ^^^ y) a b).foldl (fun acc d => acc ||| d) 0x00#8 == 0x00#8

/-- `TAG_LEN_OK(n)`: 4 to 16 bytes (R193, conflict C2). -/
def tagLenOk (n : Nat) : Bool := decide (Config.minTagBytes ≤ n ∧ n ≤ Config.maxTagBytes)

end Sys2Proof.Machine
end

