-- ==== Sys2Proof/Machine/Operands.lean ====
section
/-! DEFINITION. The operands of a command: which channels it reads (30_encoding.md R79), and the
checks on their lengths. -/

namespace Sys2Proof.Machine

/-- An operand is within MAX_OPERAND_BYTES (00_scope.md R6, 20_memory.md R51); the empty string
always is. -/
def State.fits (s : State) (b : Bytes) : Bool :=
  match b, s.maxOperandBytes with
  | [], _ => true
  | _ :: _, none => true
  | _ :: _, some bound => decide (b.length ≤ bound)

/-- The channels a command reads in a state (30_encoding.md R72, R79): a channel it does not use
is not read, whatever its content (20_memory.md R51). -/
def operandsOf (i : Instr) (s : State) : List Bytes :=
  match i with
  | .bindKey => [s.chan.key]
  | .startEnc => [s.chan.iv, s.chan.aad]
  | .startDec => [s.chan.iv, s.chan.aad]
  | .update => [s.chan.din]
  | .finish _ => if s.dir = .decrypt then [s.chan.tagin] else []

/-- Every operand the instruction reads is within the bound (20_memory.md R51, log 6). -/
def State.operandsFit (s : State) (i : Instr) : Bool := (operandsOf i s).all s.fits

/-- The legal key lengths: 16, 24 and 32 bytes (00_scope.md R6, 43_context_commands.md R161). -/
def keyLenOk (n : Nat) : Bool := Config.keyBytes.contains n

end Sys2Proof.Machine
end

