-- ==== Sys2Proof/Machine/BindKey.lean ====
section
/-! DEFINITION. BIND_KEY (43_context_commands.md R161). -/

namespace Sys2Proof.Machine

/-- What a BIND_KEY that passes its checks does, over any block cipher: bind the key, compute
H = BC.enc(KH, 0^128), clear the operation registers, become KeyBound (R161). -/
def bindKeyEffect (bind : Bytes → KeyHandle) (enc : KeyHandle → Block → Block) (s : State) :
    State :=
  let handle := bind s.chan.key
  let bound := { s with kh := some handle, h := enc handle 0#128 }
  { bound.clearOp with ctxState := .keyBound }.respond .ok [] []

/-- BIND_KEY with its checks in the order of 60_exceptions.md R203 (R161). -/
def bindKeyWith (bind : Bytes → KeyHandle) (enc : KeyHandle → Block → Block) (s : State) :
    Host.Outcome State Fault Refusal :=
  if !s.operandsFit .bindKey then .refused .operandTooLong
  else if s.ctxState = .active then .next (s.fail .invalidState)
  else if !keyLenOk s.chan.key.length then .next (s.fail .invalidKeyLength)
  else .next (bindKeyEffect bind enc s)

/-- BIND_KEY beside the block cipher of the configuration. -/
def execBindKey (s : State) : Host.Outcome State Fault Refusal :=
  bindKeyWith Config.bcBind Config.bcEnc s

end Sys2Proof.Machine
end

