-- ==== Sys2Proof/Machine/GfMul.lean ====
section
/-! DEFINITION. The GF(2^128) multiplier (40_gf128_multiplier.md). -/

namespace Sys2Proof.Machine

/-- R = 0xE1 ‖ 0^120: x^7 + x^2 + x + 1 in GCM bit order (R102). -/
def reduction : Block := 0xE1#8 ++ 0#120

/-- V·x modulo the field polynomial: the second half of the loop body of R102. -/
def mulX (v : Block) : Block :=
  if v.getLsbD 0 then (v >>> 1) ^^^ reduction else v >>> 1

/-- The loop of R102 from index i on, with `left` rounds to go and the present Z and V. -/
def gfmulLoop (x : Block) (left i : Nat) (z v : Block) : Block :=
  match left with
  | 0 => z
  | left + 1 => gfmulLoop x left (i + 1) (if gcmBit x i then z ^^^ v else z) (mulX v)

/-- `GFMUL(X, Y)`, the field product, by the reference algorithm (R101, R102). Irreducible for the
elaborator only, so that no comparison of two states runs the 128 rounds. -/
@[irreducible] def gfmul (x y : Block) : Block := gfmulLoop x 128 0 0#128 y

/-- ONE, the multiplicative identity: the polynomial 1 (R103). -/
def gfOne : Block := 0x80000000000000000000000000000000#128

end Sys2Proof.Machine
end

