-- ==== Sys2Proof/Machine/Ghash.lean ====
section
/-! DEFINITION. The GHASH accumulator (41_ghash.md). -/

namespace Sys2Proof.Machine

/-- One hash step on a local accumulator t (R120, R121). -/
def ghashStep (h t b : Block) : Block := gfmul (t ^^^ b) h

/-- The hash of a block list from the accumulator value t on. -/
def ghashFrom (h t : Block) (bs : List Block) : Block := bs.foldl (ghashStep h) t

/-- `GHASH_H(B_1, …, B_m)`, the stateless hash (R121). -/
def ghash (h : Block) (bs : List Block) : Block := ghashFrom h 0#128 bs

/-- `GSTEP(B)`: one hash step on the register Y (R120). -/
def gstep (b : Block) (s : State) : State := { s with y := ghashStep s.h s.y b }

/-- `ABSORB_AAD(A)` (R122). -/
def absorbAad (a : Bytes) (s : State) : State :=
  { (blocks a).foldl (fun t b => gstep b t) s with aadBits := bitlen a }

/-- `ABSORB_CT_BYTE(c)` (R123): the byte enters the partial-block buffer, and the sixteenth byte
folds the buffer into Y and empties it. -/
def absorbCtByte (c : Byte) (s : State) : State :=
  let buf := s.ghBuf.set s.ghFill.val c s.ghFill.isLt
  if room : s.ghFill.val + 1 < 16 then
    { s with ghBuf := buf, ghFill := ⟨s.ghFill.val + 1, room⟩ }
  else
    { gstep (blk buf.toList) s with ghBuf := zeroBuf, ghFill := 0 }

/-- The byte loop of `ABSORB_CT` (R124). -/
def absorbCtBytes (c : Bytes) (s : State) : State := c.foldl (fun t x => absorbCtByte x t) s

/-- CT_BITS grows by the bits of a chunk, modulo 2^64 (R124, 43_context_commands.md R170). -/
def countCt (c : Bytes) (s : State) : State := { s with ctBits := s.ctBits + bitlen c }

/-- `ABSORB_CT(C)` (R124). -/
def absorbCt (c : Bytes) (s : State) : State := countCt c (absorbCtBytes c s)

/-- The first part of `FINALIZE` (R125): a partial last block is zero-padded and folded. -/
def flushPartial (s : State) : State :=
  if s.ghFill = 0 then s
  else
    { gstep (blk (pad16 (s.ghBuf.toList.take s.ghFill.val))) s with
      ghBuf := zeroBuf, ghFill := 0 }

/-- `FINALIZE()` (R125): the state it leaves, whose Y is the value S it returns. -/
def finalize (s : State) : State :=
  let t := flushPartial s
  gstep (lengthBlock t.aadBits t.ctBits) t

end Sys2Proof.Machine
end

