-- ==== Sys2Proof/Machine/Ctr.lean ====
section
/-! DEFINITION. The counter-mode keystream generator (42_ctr_keystream.md). `enc` is `BC.enc(KH, ·)`
under the bound key, which the command that calls these operations supplies. -/

namespace Sys2Proof.Machine

/-- `inc32(V)`: the low 32 bits plus one modulo 2^32, the high 96 bits as they are (R140). -/
def inc32 (v : Block) : Block := v.extractLsb' 32 96 ++ (v.extractLsb' 0 32 + 1#32)

/-- `inc32` applied n times (10_state.md R35, R145). -/
def inc32Times : Nat → Block → Block
  | 0, v => v
  | n + 1, v => inc32 (inc32Times n v)

/-- `DERIVE_J0(IV)` under the hash subkey h (R141, R142): twelve bytes are taken directly, every
other length is hashed with the length block `0^64 ‖ bitlen(IV)` (conflict C6). -/
def deriveJ0 (h : Block) (iv : Bytes) : Block :=
  if iv.length = Config.ivFastBytes then blk (iv ++ [0x00#8, 0x00#8, 0x00#8, 0x01#8])
  else ghash h (blocks iv ++ [lengthBlock 0#64 (bitlen iv)])

/-- The first part of `KS_BYTE` (R144): where no unused keystream byte is left, the next block. -/
def refillKeystream (enc : Block → Block) (s : State) : State :=
  if s.ksPos = 16 then { s with ksBuf := enc s.ctr, ctr := inc32 s.ctr, ksPos := 0 } else s

/-- `KS_BYTE()` (R144): the next keystream byte, and the state it leaves. -/
def ksByte (enc : Block → Block) (s : State) : State × Byte :=
  let t := refillKeystream enc s
  ({ t with ksPos := t.ksPos + 1 }, blockByte t.ksBuf t.ksPos.val)

/-- `XOR_INTO(d)` (R146). -/
def xorInto (enc : Block → Block) (d : Byte) (s : State) : State × Byte :=
  let r := ksByte enc s
  (r.1, d ^^^ r.2)

end Sys2Proof.Machine
end

