-- ==== Sys2Proof/Machine/Finish.lean ====
section
/-! DEFINITION. FINISH (43_context_commands.md R176). -/

namespace Sys2Proof.Machine

/-- The tag of the present operation, n bytes of it: FINALIZE, TAG_FULL and TRUNC
(R176, 41_ghash.md R125, 44_tag.md R190, R191). -/
def operationTag (enc : Block → Block) (n : Nat) (s : State) : Bytes :=
  let t := finalize s
  trunc (tagFull enc t.j0 t.y) n

/-- What FINISH leaves of an operation once its tag is computed: nothing (R176, 10_state.md R33). -/
def endOperation (s : State) : State := { s.clearOp with ctxState := .finalized }

/-- What a FINISH that passes its checks does under the bound key (R176): in Encrypt it puts the
tag out, in Decrypt it answers whether the supplied tag is the same and releases nothing else
(R178). -/
def finishEffect (enc : Block → Block) (n : Nat) (s : State) : State :=
  let tag := operationTag enc n s
  let done := endOperation (finalize s)
  match s.dir with
  | .encrypt => done.respond .ok [] tag
  | .decrypt =>
    if tagEq tag s.chan.tagin then done.respond .ok [] []
    else done.respond .authenticationFailure [] []

/-- FINISH with its checks in the order of 60_exceptions.md R203 (R176), over any block cipher. -/
def finishWith (enc : KeyHandle → Block → Block) (n : Nat) (s : State) :
    Host.Outcome State Fault Refusal :=
  if !s.operandsFit (.finish n) then .refused .operandTooLong
  else if s.ctxState ≠ .active then .next (s.fail .invalidState)
  else if !tagLenOk n then .next (s.fail .invalidTagLength)
  else if s.dir = .decrypt ∧ s.chan.tagin.length ≠ n then .next (s.fail .invalidTagLength)
  else
    match s.kh with
    | none => .fault .noKeyHandle
    | some handle => .next (finishEffect (enc handle) n s)

/-- FINISH beside the block cipher of the configuration. -/
def execFinish (tagLen : Nat) (s : State) : Host.Outcome State Fault Refusal :=
  finishWith Config.bcEnc tagLen s

end Sys2Proof.Machine
end

