-- ==== Sys2Proof/Machine/Start.lean ====
section
/-! DEFINITION. START.ENC and START.DEC (43_context_commands.md R165, R166, R167). -/

namespace Sys2Proof.Machine

/-- What a START in KeyBound does (R165): clear the operation registers, take the direction, derive
J0, seed the counter with inc32(J0) (42_ctr_keystream.md R143), absorb the AAD, become Active. -/
def startEffect (d : Direction) (s : State) : State :=
  let j0 := deriveJ0 s.h s.chan.iv
  let seeded := { s.clearOp with dir := d, j0 := j0, ctr := inc32 j0, ksPos := 16 }
  { absorbAad s.chan.aad seeded with ctxState := .active }.respond .ok [] []

/-- START.ENC (R166): an Encrypt operation. -/
def execStartEnc (s : State) : Host.Outcome State Fault Refusal :=
  if !s.operandsFit .startEnc then .refused .operandTooLong
  else if s.ctxState ≠ .keyBound then .next (s.fail .invalidState)
  else .next (startEffect .encrypt s)

/-- START.DEC (R167): a Decrypt operation. -/
def execStartDec (s : State) : Host.Outcome State Fault Refusal :=
  if !s.operandsFit .startDec then .refused .operandTooLong
  else if s.ctxState ≠ .keyBound then .next (s.fail .invalidState)
  else .next (startEffect .decrypt s)

end Sys2Proof.Machine
end

