-- ==== Sys2Proof/Machine/Update.lean ====
section
/-! DEFINITION. UPDATE (43_context_commands.md R170). -/

namespace Sys2Proof.Machine

/-- One byte of a chunk (R170): in Encrypt the keystream XOR comes first and its result is
absorbed, in Decrypt the byte itself is absorbed first. The absorbed byte is always the ciphertext
(41_ghash.md R127). -/
def updateByte (enc : Block → Block) (d : Byte) (s : State) : State × Byte :=
  match s.dir with
  | .encrypt =>
    let r := xorInto enc d s
    (absorbCtByte r.2 r.1, r.2)
  | .decrypt => xorInto enc d (absorbCtByte d s)

/-- The byte loop of UPDATE: the state it leaves and the bytes it puts out (R170). -/
def updateBytes (enc : Block → Block) : Bytes → State → State × Bytes
  | [], s => (s, [])
  | d :: ds, s =>
    let r := updateByte enc d s
    let rest := updateBytes enc ds r.1
    (rest.1, r.2 :: rest.2)

/-- What an UPDATE in Active does under the bound key (R170). -/
def updateEffect (enc : Block → Block) (s : State) : State :=
  let r := updateBytes enc s.chan.din s
  (countCt s.chan.din r.1).respond .ok r.2 []

/-- UPDATE with its checks (R170), over any block cipher. -/
def updateWith (enc : KeyHandle → Block → Block) (s : State) : Host.Outcome State Fault Refusal :=
  if !s.operandsFit .update then .refused .operandTooLong
  else if s.ctxState ≠ .active then .next (s.fail .invalidState)
  else
    match s.kh with
    | none => .fault .noKeyHandle
    | some handle => .next (updateEffect (enc handle) s)

/-- UPDATE beside the block cipher of the configuration. -/
def execUpdate (s : State) : Host.Outcome State Fault Refusal := updateWith Config.bcEnc s

end Sys2Proof.Machine
end

