-- ==== Sys2Proof/Machine/Dispatch.lean ====
section
/-! DEFINITION. One arm per instruction: which meaning runs. -/

namespace Sys2Proof.Machine

/-- The effect of one decoded command on the state with its operands at the port. -/
def exec (i : Instr) (s : State) : Host.Outcome State Fault Refusal :=
  match i with
  | .bindKey => Sys2Proof.Machine.execBindKey s
  | .startEnc => Sys2Proof.Machine.execStartEnc s
  | .startDec => Sys2Proof.Machine.execStartDec s
  | .update => Sys2Proof.Machine.execUpdate s
  | .finish tagLen => Sys2Proof.Machine.execFinish tagLen s

end Sys2Proof.Machine
end

