-- ==== Sys2Proof/WellFormed.lean ====
section
/-! DEFINITION. Which instruction terms a command word can carry. -/

namespace Sys2Proof

/-- TAGLEN is five bits wide, so it carries 0 to 31 and no other length assembles
(30_encoding.md R74, R80). Whether a length that can be carried is legal is FINISH's own check. -/
def Instr.wellFormed : Instr → Bool
  | .bindKey => true
  | .startEnc => true
  | .startDec => true
  | .update => true
  | .finish tagLen => decide (tagLen ≤ 31)

end Sys2Proof
end

