-- ==== Sys2Proof/Decode.lean ====
section
/-! DEFINITION. The decoder of 30_encoding.md R76, total on all 2^32 words, and after it the
encoder. Both are written from R71 and R76. -/

namespace Sys2Proof

/-- Why a word is ILLEGAL (30_encoding.md R77). The core answers all of them with the one status
IllegalCommand, so the reason is the model's own and the host cannot see it. -/
inductive Illegal where
  /-- OPC is 0x0 or 0x5 to 0xF. -/
  | reservedOpcode
  /-- W[7:5] is not zero. -/
  | nonzeroRsv0
  /-- W[31:13] is not zero. -/
  | nonzeroRsv1
  /-- W[4] is set in a command that is not START. -/
  | nonzeroDir
  /-- W[12:8] is not zero in a command that is not FINISH. -/
  | nonzeroTagLen
deriving DecidableEq, Repr

/-- `v[hi:lo]` of R9 for the command word, as a number. -/
def CmdWord.slice (w : CmdWord) (hi lo : Nat) : Nat :=
  (w.extractLsb hi lo).toNat

/-- OPC = W[3:0] (R71). -/
def CmdWord.opc (w : CmdWord) : Nat := CmdWord.slice w 3 0

/-- DIR = W[4] (R71, R73). -/
def CmdWord.dir (w : CmdWord) : Nat := CmdWord.slice w 4 4

/-- RSV0 = W[7:5] (R71). -/
def CmdWord.rsv0 (w : CmdWord) : Nat := CmdWord.slice w 7 5

/-- TAGLEN = W[12:8], unsigned (R71, R74). -/
def CmdWord.tagLen (w : CmdWord) : Nat := CmdWord.slice w 12 8

/-- RSV1 = W[31:13] (R71). -/
def CmdWord.rsv1 (w : CmdWord) : Nat := CmdWord.slice w 31 13

/-- The field that makes a word with a known OPC illegal: the first one, in this order, that is
not zero although it must be. Used only where `decode` has found that there is one. -/
def CmdWord.offendingField (w : CmdWord) : Illegal :=
  if CmdWord.rsv1 w ≠ 0 then .nonzeroRsv1
  else if CmdWord.rsv0 w ≠ 0 then .nonzeroRsv0
  else if CmdWord.opc w ≠ 0x2 ∧ CmdWord.dir w ≠ 0 then .nonzeroDir
  else .nonzeroTagLen

/-- `decode(W)` of 30_encoding.md R76, case by case. -/
def decode (w : CmdWord) : Except Illegal Instr :=
  if CmdWord.opc w = 0x1 then
    if CmdWord.slice w 31 4 = 0 then .ok .bindKey else .error (CmdWord.offendingField w)
  else if CmdWord.opc w = 0x2 then
    if CmdWord.slice w 31 5 = 0 then
      .ok (if CmdWord.dir w = 0 then .startEnc else .startDec)
    else .error (CmdWord.offendingField w)
  else if CmdWord.opc w = 0x3 then
    if CmdWord.slice w 31 4 = 0 then .ok .update else .error (CmdWord.offendingField w)
  else if CmdWord.opc w = 0x4 then
    if CmdWord.slice w 31 13 = 0 ∧ CmdWord.slice w 7 4 = 0 then .ok (.finish (CmdWord.tagLen w))
    else .error (CmdWord.offendingField w)
  else .error .reservedOpcode

/-- The command word of an instruction: the list of legal words of 30_encoding.md R76. -/
def encode : Instr → CmdWord
  | .bindKey => 0x00000001#32
  | .startEnc => 0x00000002#32
  | .startDec => 0x00000012#32
  | .update => 0x00000003#32
  | .finish tagLen => 0x00000004#32 ||| (BitVec.ofNat 32 tagLen <<< 8)

/-- The word the host numbers in spec/opcode_table.json: bits at and above `nbits` are 0. The core
takes its command word whole, so no byte order enters (log 14). -/
def tableWord (nbits w : Nat) : CmdWord := BitVec.ofNat 32 (w % 2 ^ nbits)

/-- What the decoder reads from a word of the opcode table. -/
def decodeTableWord (nbits w : Nat) : Option Instr :=
  match decode (tableWord nbits w) with
  | .ok i => some i
  | .error _ => none

end Sys2Proof
end

