-- ==== Sys2Proof/Machine/Port.lean ====
section
/-! DEFINITION. The host's side of the port, as `step` uses it: taking the next event, putting a
command's channels there, and answering a word that does not decode. -/

namespace Sys2Proof.Machine

/-- The state with a command at the port: its channels have arrived in full before it begins
(20_memory.md R51), and the host's remaining events are `rest`. -/
def State.accept (s : State) (c : Command) (rest : List Event) : State :=
  { s with chan := c.chan, pending := rest }

/-- The answer to an ILLEGAL word, whatever the reason and the state (30_encoding.md R77,
60_exceptions.md R202). -/
def State.rejectWord (s : State) (_why : Illegal) : State := s.fail .illegalCommand

/-- Hardware reset arrives: a command in progress is abandoned with none of its effects
(70_reset_and_hazards.md R231), so only the events after it remain. -/
def State.takeReset (s : State) (rest : List Event) : State :=
  { s with pending := rest }.hardwareReset

/-- The host is about to issue one more command, before what it would do next. -/
def State.queueCommand (s : State) (c : Command) : State :=
  { s with pending := .command c :: s.pending }

end Sys2Proof.Machine
end

