-- ==== Sys2Proof/Machine/Step.lean ====
section
/-! DEFINITION. One step of the core: one event at its port. -/

namespace Sys2Proof.Machine

/-- The core answers the command at its port: it decodes exactly one word and runs the
instruction, or answers IllegalCommand (30_encoding.md R70, R76, R78). -/
def runWord (w : CmdWord) (s : State) : Host.Outcome State Fault Refusal :=
  match decode w with
  | .ok i => exec i s
  | .error why => .next (s.rejectWord why)

/-- One step. With nothing at the port the core waits (70_reset_and_hazards.md R232, log 3). A
command is one atomic step (20_memory.md R56). Overlapping commands have no meaning and are refused
(R240). -/
def step (s : State) : Host.Outcome State Fault Refusal :=
  match s.pending with
  | [] => .next s
  | .command c :: rest => runWord c.word (s.accept c rest)
  | .hardwareReset _ :: rest => .next (s.takeReset rest)
  | .overlapping _ _ :: _ => .refused .overlappingCommands

/-- The state in which the host's next act is to issue the command word `w`, with what stands on
the operand channels: the core fetches no instruction, it is handed one (10_state.md R21, log 1). -/
def State.withFetchWord (s : State) (nbits w : Nat) : State :=
  s.queueCommand ⟨tableWord nbits w, s.chan⟩

end Sys2Proof.Machine
end

