-- ==== Sys2Proof/Machine/Assembler.lean ====
section
/-! DEFINITION. The assembler of 30_encoding.md R80 over lines whose hex text is already read
(00_scope.md R5 (a) leaves hex text out), and the pseudo-commands of R81. -/

namespace Sys2Proof.Machine

/-- One line of the mnemonic form of R80. -/
inductive AsmLine where
  | bindKey (key : Bytes)
  | startEnc (iv aad : Bytes)
  | startDec (iv aad : Bytes)
  | update (din : Bytes)
  /-- `FINISH tag_len=<n>`, with `tag=<hex>` where one is given. -/
  | finish (tagLen : Nat) (tag : Bytes)
deriving DecidableEq, Repr

/-- The instruction of a line. -/
def AsmLine.instr : AsmLine → Instr
  | .bindKey _ => .bindKey
  | .startEnc _ _ => .startEnc
  | .startDec _ _ => .startDec
  | .update _ => .update
  | .finish tagLen _ => .finish tagLen

/-- The operand channels of a line; an operand left out is the empty string (R80). -/
def AsmLine.channels : AsmLine → Channels
  | .bindKey key => { Channels.empty with key := key }
  | .startEnc iv aad => { Channels.empty with iv := iv, aad := aad }
  | .startDec iv aad => { Channels.empty with iv := iv, aad := aad }
  | .update din => { Channels.empty with din := din }
  | .finish _ tag => { Channels.empty with tagin := tag }

/-- The command a line assembles to; a `tag_len` above 31 does not assemble (R80). -/
def assemble (l : AsmLine) : Option Command :=
  if (AsmLine.instr l).wellFormed then some ⟨encode (AsmLine.instr l), AsmLine.channels l⟩
  else none

/-- A program: every line assembles, or the program does not. -/
def assembleAll : List AsmLine → Option (List Command)
  | [] => some []
  | l :: ls =>
    match assemble l, assembleAll ls with
    | some c, some cs => some (c :: cs)
    | _, _ => none

/-- `SEAL` with the plaintext given in chunks; R81 gives one chunk. -/
def sealLines (key iv aad : Bytes) (chunks : List Bytes) (tagLen : Nat) : List AsmLine :=
  [.bindKey key, .startEnc iv aad] ++ chunks.map .update ++ [.finish tagLen []]

/-- `OPEN` with the ciphertext given in chunks; R81 gives one chunk. The tag length is that of the
supplied tag. -/
def openLines (key iv aad : Bytes) (chunks : List Bytes) (tag : Bytes) : List AsmLine :=
  [.bindKey key, .startDec iv aad] ++ chunks.map .update ++ [.finish tag.length tag]

/-- The pseudo-command `SEAL` (R81). -/
def sealProgram (key iv aad pt : Bytes) (tagLen : Nat) : List AsmLine :=
  sealLines key iv aad [pt] tagLen

/-- The pseudo-command `OPEN` (R81). -/
def openProgram (key iv aad ct tag : Bytes) : List AsmLine :=
  openLines key iv aad [ct] tag

end Sys2Proof.Machine
end

