-- ==== Sys2Proof/Machine/Script.lean ====
section
/-! DEFINITION. The host's conduct of a run (70_reset_and_hazards.md R240, R247): it issues one
command, waits for the response, and then issues the next. -/

namespace Sys2Proof.Machine

/-- The host issues one command and takes its response; none where the core stops. -/
def transact (c : Command) (s : State) : Option (Response × State) :=
  match step (s.queueCommand c) with
  | .next t =>
    match t.resp with
    | some r => some (r, t)
    | none => none
  | .fault _ => none
  | .refused _ => none

/-- The host issues a list of commands, each after the response to the one before it, and stops
after the first whose status is not OK (30_encoding.md R81); none where the core stops. -/
def runScript : List Command → State → Option (List Response × State)
  | [], s => some ([], s)
  | c :: cs, s =>
    match transact c s with
    | none => none
    | some (r, t) =>
      if r.status = .ok then
        match runScript cs t with
        | none => none
        | some (rs, u) => some (r :: rs, u)
      else some ([r], t)

/-- A program in the mnemonic form, assembled and run; none where it does not assemble. -/
def runLines (ls : List AsmLine) (s : State) : Option (List Response × State) :=
  match assembleAll ls with
  | none => none
  | some cs => runScript cs s

end Sys2Proof.Machine
end

