-- ==== Sys2Proof/Safety.lean ====
section
/-! DEFINITION. The terms in which claims about the core are made: which registers a command
keeps, the invariant of every reachable state, the closed forms of an operation, the field
GF(2^128), and what a host sees of a run. -/

namespace Sys2Proof.Machine

/-- Every register of 10_state.md R38 holds the same value in both states. -/
structure SameRegisters (s t : State) : Prop where
  ctxState : t.ctxState = s.ctxState
  kh : t.kh = s.kh
  h : t.h = s.h
  dir : t.dir = s.dir
  j0 : t.j0 = s.j0
  ctr : t.ctr = s.ctr
  ksBuf : t.ksBuf = s.ksBuf
  ksPos : t.ksPos = s.ksPos
  y : t.y = s.y
  ghBuf : t.ghBuf = s.ghBuf
  ghFill : t.ghFill = s.ghFill
  aadBits : t.aadBits = s.aadBits
  ctBits : t.ctBits = s.ctBits

/-- What no command touches: its own operands (20_memory.md R52), what the host will do next, and
the operand bound of the implementation. -/
structure SameOutside (s t : State) : Prop where
  chan : t.chan = s.chan
  pending : t.pending = s.pending
  maxOperandBytes : t.maxOperandBytes = s.maxOperandBytes

/-- Every operation register holds its cleared value (10_state.md R33). -/
structure OpCleared (s : State) : Prop where
  dir : s.dir = .encrypt
  j0 : s.j0 = 0#128
  ctr : s.ctr = 0#128
  ksBuf : s.ksBuf = 0#128
  ksPos : s.ksPos = 16
  y : s.y = 0#128
  ghBuf : s.ghBuf = zeroBuf
  ghFill : s.ghFill = 0
  aadBits : s.aadBits = 0#64
  ctBits : s.ctBits = 0#64

/-- The state of an operation with associated data `aad` whose ciphertext so far is `ct`, under the
bound key `enc`: the five points of 10_state.md R35. -/
structure OperationAt (enc : Block → Block) (aad ct : Bytes) (s : State) : Prop where
  fill : s.ghFill.val = ct.length % 16
  buffered : s.ghBuf.toList.take s.ghFill.val = ct.drop (16 * (ct.length / 16))
  folded : s.y = ghash s.h (blocks aad ++ fullBlocks ct)
  aadBits : s.aadBits = bitlen aad
  ctBits : s.ctBits = bitlen ct
  position : s.ksPos.val = if ct.length % 16 = 0 then 16 else ct.length % 16
  counter : s.ctr = inc32Times ((ct.length + 15) / 16 + 1) s.j0
  keystream : 0 < ct.length → s.ksBuf = enc (inc32Times ((ct.length + 15) / 16) s.j0)

/-- The bytes of GH_BUF at and above GH_FILL are 0x00: the buffer starts as sixteen 0x00 bytes,
a byte is written only at GH_FILL, and the sixteenth empties the buffer to sixteen 0x00 bytes
(10_state.md R30, 41_ghash.md R123). -/
def TailZero (s : State) : Prop :=
  s.ghBuf.toList.drop s.ghFill.val = List.replicate (16 - s.ghFill.val) 0x00#8

/-- The invariant of the machine: every state a run from reset reaches meets it. -/
structure Inv (s : State) : Prop where
  /-- A key is bound exactly outside Uninitialized (10_state.md R23). -/
  keyBound : s.kh = none ↔ s.ctxState = .uninitialized
  /-- A bound key came from `BC.bind` of a key of legal length (R23, 43_context_commands.md R161). -/
  keyFromBind : ∀ handle, s.kh = some handle →
    ∃ key : Bytes, keyLenOk key.length ∧ handle = Config.bcBind key
  /-- H is the hash subkey of the bound key (R24). -/
  subkey : ∀ handle, s.kh = some handle → s.h = Config.bcEnc handle 0#128
  /-- Outside Active every operation register holds its cleared value (R34). -/
  cleared : s.ctxState ≠ .active → OpCleared s
  /-- The high 96 bits of CTR are those of J0 (R27). -/
  frozen : s.ctr.extractLsb' 32 96 = s.j0.extractLsb' 32 96
  /-- In Active the registers are those of some operation (R35). -/
  operation : s.ctxState = .active → ∀ handle, s.kh = some handle →
    ∃ aad ct : Bytes, OperationAt (Config.bcEnc handle) aad ct s
  /-- The unused bytes of GH_BUF are 0x00 (R30, 41_ghash.md R123). -/
  tail : TailZero s

/-- In which context states a command is legal (43_context_commands.md R160). -/
def legalIn (i : Instr) (c : CtxState) : Bool :=
  match i, c with
  | .bindKey, .uninitialized => true
  | .bindKey, .keyBound => true
  | .bindKey, .active => false
  | .bindKey, .finalized => true
  | .startEnc, .keyBound => true
  | .startEnc, .uninitialized => false
  | .startEnc, .active => false
  | .startEnc, .finalized => false
  | .startDec, .keyBound => true
  | .startDec, .uninitialized => false
  | .startDec, .active => false
  | .startDec, .finalized => false
  | .update, .active => true
  | .update, .uninitialized => false
  | .update, .keyBound => false
  | .update, .finalized => false
  | .finish _, .active => true
  | .finish _, .uninitialized => false
  | .finish _, .keyBound => false
  | .finish _, .finalized => false

/-- The context state a legal command leads to (R160). -/
def targetOf : Instr → CtxState
  | .bindKey => .keyBound
  | .startEnc => .active
  | .startDec => .active
  | .update => .active
  | .finish _ => .finalized

/-- The status of the operand check a command fails, if it fails one (60_exceptions.md R202,
44_tag.md R193, R194). -/
def operandError (i : Instr) (s : State) : Option Status :=
  match i with
  | .bindKey =>
    if s.chan.key.length = 16 ∨ s.chan.key.length = 24 ∨ s.chan.key.length = 32 then none
    else some .invalidKeyLength
  | .startEnc => none
  | .startDec => none
  | .update => none
  | .finish n =>
    if n < 4 ∨ 16 < n then some .invalidTagLength
    else if s.dir = .decrypt ∧ s.chan.tagin.length ≠ n then some .invalidTagLength
    else none

/-- A FINISH of a Decrypt operation whose computed tag differs from the supplied one (R176). -/
def tagDiffers (i : Instr) (s : State) : Prop :=
  ∃ n handle, i = .finish n ∧ s.dir = .decrypt ∧ s.kh = some handle ∧
    operationTag (Config.bcEnc handle) n s ≠ s.chan.tagin

/-- The field polynomial x^128 + x^7 + x^2 + x + 1 over GF(2) (40_gf128_multiplier.md R100). -/
noncomputable def gcmPoly : Polynomial (ZMod 2) :=
  Polynomial.X ^ 128 + Polynomial.X ^ 7 + Polynomial.X ^ 2 + Polynomial.X + 1

/-- The polynomial a block stands for: GCM bit i is the coefficient of x^i (R100). -/
noncomputable def toPoly (v : Block) : Polynomial (ZMod 2) :=
  ∑ i ∈ Finset.range 128, if gcmBit v i then Polynomial.X ^ i else 0

/-- `b` with bit `k` of byte `i` flipped. -/
def flipBit (b : Bytes) (i k : Nat) : Bytes :=
  b.set i (b.getD i 0x00#8 ^^^ (0x01#8 <<< k))

/-- `b'` is `b` with one bit flipped. -/
def OneBitFlipped (b b' : Bytes) : Prop := ∃ i k, i < b.length ∧ k < 8 ∧ b' = flipBit b i k

/-- Everything the UPDATE commands of a script put out, one byte string per command. A script is
BIND_KEY, START, the UPDATEs and FINISH. -/
def updateOutputs (rs : List Response) : List Bytes := ((rs.drop 2).dropLast).map Response.dout

/-- The tag the last command of a script put out. -/
def finalTag (rs : List Response) : Bytes :=
  match rs.getLast? with
  | some r => r.tagout
  | none => []

/-- Every command of a script was answered with OK. -/
def allOk (rs : List Response) : Bool := rs.all (fun r => decide (r.status = .ok))

/-- `n` bytes of the keystream of an operation from data byte number `start` on
(42_ctr_keystream.md R145). -/
def keystreamFrom (enc : Block → Block) (j0 : Block) (start n : Nat) : Bytes :=
  (List.range n).map
    (fun k => blockByte (enc (inc32Times ((start + k) / 16 + 1) j0)) ((start + k) % 16))

/-- Two byte strings of one length combined bytewise (00_scope.md R12). -/
def xorBytes (a b : Bytes) : Bytes := List.zipWith (fun x y => x ^^^ y) a b

end Sys2Proof.Machine
end

