-- ==== Sys2Proof/Certificates/Slice0/Obligations.lean ====
section
/-! DEFINITION. The statements about the core, for the provers. Each docstring says which rule of
spec/ it formalises. A statement names its hypotheses on the state and the operands alone; a test
of the same name under Sys2Proof/Tests/Slice0.lean shows that they can be met. -/

open Sys2Proof Sys2Proof.Machine

/-! ## Reset and the port -/

/-- 70_reset_and_hazards.md R230: every register after hardware reset. -/
def Obligations.ResetLeavesEveryRegisterAtItsValue : Prop :=
  State.reset.ctxState = .uninitialized ∧ State.reset.kh = none ∧ State.reset.h = 0#128 ∧
  State.reset.dir = .encrypt ∧ State.reset.j0 = 0#128 ∧ State.reset.ctr = 0#128 ∧
  State.reset.ksBuf = 0#128 ∧ State.reset.ksPos = 16 ∧ State.reset.y = 0#128 ∧
  State.reset.ghBuf.toList = List.replicate 16 0x00#8 ∧ State.reset.ghFill = 0 ∧
  State.reset.aadBits = 0#64 ∧ State.reset.ctBits = 0#64

/-- R231: reset may arrive in any state, also in the middle of a command (`cut`), and leaves exactly
the state of R230; the command it cuts short delivers no response. That the host's later events and
the operand bound stay is the model's choice (log 8). -/
def Obligations.HardwareResetFromAnyState : Prop :=
  ∀ (s : State) (cut : Option Command) (rest : List Event),
    s.pending = .hardwareReset cut :: rest →
    ∃ t, step s = .next t ∧ SameRegisters State.reset t ∧ t.resp = none ∧
      t.pending = rest ∧ t.maxOperandBytes = s.maxOperandBytes

/-- R232 (which the spec derives from R21): with nothing at the port the core waits. That waiting
changes nothing at all is an inference of the model (log 3). -/
def Obligations.WaitsWithNothingAtThePort : Prop :=
  ∀ s : State, s.pending = [] → step s = .next s

/-- R240: overlapping commands are refused, never merged. -/
def Obligations.OverlappingCommandsRefused : Prop :=
  ∀ (s : State) (first second : Command) (rest : List Event),
    s.pending = .overlapping first second :: rest → step s = .refused .overlappingCommands

/-- A step runs the decoded instruction (30_encoding.md R70, R78): where the word of the command at
the port decodes to i, the step is exec of i on the state with the command's channels delivered and
the command taken from the host's list. -/
def Obligations.StepRunsDecodedInstruction : Prop :=
  ∀ (s : State) (c : Command) (rest : List Event) (i : Instr),
    s.pending = .command c :: rest → decode c.word = .ok i →
    step s = exec i { s with chan := c.chan, pending := rest }

/-- The host's own way to have an instruction run: the state with a table word about to be issued
steps as exec of the instruction the word decodes to, on the state as it was. -/
def Obligations.IssuedTableWordRuns : Prop :=
  ∀ (s : State) (nbits w : Nat) (i : Instr),
    decodeTableWord nbits w = some i → step (s.withFetchWord nbits w) = exec i s

/-- 20_memory.md R51: an operand that the command reads and that is longer than MAX_OPERAND_BYTES
has no step. That this comes before the command's own checks is the model's choice (log 6). -/
def Obligations.OperandOverTheBoundRefused : Prop :=
  ∀ (i : Instr) (s : State) (bound : Nat) (b : Bytes),
    s.maxOperandBytes = some bound → b ∈ operandsOf i s → bound < b.length →
    exec i s = .refused .operandTooLong

/-! ## Encoding -/

/-- 30_encoding.md R76: the legal words are exactly the encodings of the well-formed instructions,
and each decodes to its own. -/
def Obligations.DecodeIsInverseOfEncode : Prop :=
  ∀ (w : CmdWord) (i : Instr), decode w = .ok i ↔ (i.wellFormed = true ∧ w = encode i)

/-- R76: decode, total on all words, is given by its list of legal words, written here as the rule
writes it; every other word is ILLEGAL, that is, decodes to no instruction. -/
def Obligations.LegalWordsAreTheListedOnes : Prop :=
  ∀ (w : CmdWord) (i : Instr), decode w = .ok i ↔
    ((i = .bindKey ∧ w = 0x00000001#32) ∨ (i = .startEnc ∧ w = 0x00000002#32) ∨
      (i = .startDec ∧ w = 0x00000012#32) ∨ (i = .update ∧ w = 0x00000003#32) ∨
      ∃ tagLen : Nat, tagLen ≤ 31 ∧ i = .finish tagLen ∧
        w = BitVec.ofNat 32 (4 + tagLen * 256))

/-- R82, which the spec derives from R76: the encoding examples. -/
def Obligations.EncodingExamples : Prop :=
  encode .bindKey = 0x00000001#32 ∧ decode 0x00000001#32 = .ok .bindKey ∧
  encode .startDec = 0x00000012#32 ∧ decode 0x00000012#32 = .ok .startDec ∧
  encode (.finish 16) = 0x00001004#32 ∧ decode 0x00001004#32 = .ok (.finish 16) ∧
  encode (.finish 12) = 0x00000C04#32 ∧ decode 0x00000C04#32 = .ok (.finish 12) ∧
  encode (.finish 3) = 0x00000304#32 ∧ decode 0x00000304#32 = .ok (.finish 3) ∧
  decode 0x00000002#32 = .ok .startEnc ∧ decode 0x00000003#32 = .ok .update ∧
  (∀ i, decode 0x00000022#32 ≠ .ok i) ∧ (∀ i, decode 0x00000014#32 ≠ .ok i) ∧
  (∀ i, decode 0x00000000#32 ≠ .ok i)

/-- R77: a word that is the encoding of no well-formed instruction is answered with IllegalCommand
in every state, no register changes and the results are empty. -/
def Obligations.IllegalWordAnswered : Prop :=
  ∀ (s : State) (c : Command) (rest : List Event),
    s.pending = .command c :: rest → (∀ i : Instr, i.wellFormed = true → c.word ≠ encode i) →
    step s = .next { s with
      chan := c.chan, pending := rest, resp := some ⟨.illegalCommand, [], []⟩ }

/-- R80: a line assembles exactly when its tag length fits the word, and its word decodes back to
the line's instruction. -/
def Obligations.AssembledLineDecodesBack : Prop :=
  ∀ l : AsmLine,
    (∀ c, assemble l = some c → decode c.word = .ok (AsmLine.instr l) ∧
      c.chan = AsmLine.channels l) ∧
    (assemble l = none ↔ ∃ n tag, l = .finish n tag ∧ 31 < n)

/-! ## What each command does -/

/-- 43_context_commands.md R161: BIND_KEY answers InvalidState in Active, else InvalidKeyLength
where the key is not 16, 24 or 32 bytes, and changes nothing then; else it binds the key, computes
H, clears the operation registers, becomes KeyBound and answers OK. Everything else is as it was.
The key is within the operand bound, where there is one (log 6). -/
def Obligations.BindKeyBindsAndComputesSubkey : Prop :=
  ∀ s : State, s.operandsFit .bindKey = true →
    (s.ctxState = .active →
      exec .bindKey s = .next { s with resp := some ⟨.invalidState, [], []⟩ }) ∧
    (s.ctxState ≠ .active → ¬ (s.chan.key.length = 16 ∨ s.chan.key.length = 24 ∨
        s.chan.key.length = 32) →
      exec .bindKey s = .next { s with resp := some ⟨.invalidKeyLength, [], []⟩ }) ∧
    (s.ctxState ≠ .active → (s.chan.key.length = 16 ∨ s.chan.key.length = 24 ∨
        s.chan.key.length = 32) →
      exec .bindKey s = .next { s with
        ctxState := .keyBound
        kh := some (Config.bcBind s.chan.key)
        h := Config.bcEnc (Config.bcBind s.chan.key) 0#128
        dir := .encrypt, j0 := 0#128, ctr := 0#128, ksBuf := 0#128, ksPos := 16, y := 0#128
        ghBuf := zeroBuf, ghFill := 0, aadBits := 0#64, ctBits := 0#64
        resp := some ⟨.ok, [], []⟩ })

/-- R165, R166: START.ENC answers InvalidState outside KeyBound and changes nothing then; in KeyBound
it answers OK and leaves every register as stated here. IV and AAD are within the operand bound,
where there is one (log 6). -/
def Obligations.StartEncBeginsOperation : Prop :=
  ∀ s : State, s.operandsFit .startEnc = true →
    (s.ctxState ≠ .keyBound →
      exec .startEnc s = .next { s with resp := some ⟨.invalidState, [], []⟩ }) ∧
    (s.ctxState = .keyBound →
      exec .startEnc s = .next { s with
        ctxState := .active, dir := .encrypt
        j0 := deriveJ0 s.h s.chan.iv, ctr := inc32 (deriveJ0 s.h s.chan.iv)
        ksBuf := 0#128, ksPos := 16
        y := ghash s.h (blocks s.chan.aad)
        ghBuf := zeroBuf, ghFill := 0, aadBits := bitlen s.chan.aad, ctBits := 0#64
        resp := some ⟨.ok, [], []⟩ })

/-- R165, R167: START.DEC answers InvalidState outside KeyBound and changes nothing then; in KeyBound
it answers OK and leaves every register as stated here. IV and AAD are within the operand bound,
where there is one (log 6). -/
def Obligations.StartDecBeginsOperation : Prop :=
  ∀ s : State, s.operandsFit .startDec = true →
    (s.ctxState ≠ .keyBound →
      exec .startDec s = .next { s with resp := some ⟨.invalidState, [], []⟩ }) ∧
    (s.ctxState = .keyBound →
      exec .startDec s = .next { s with
        ctxState := .active, dir := .decrypt
        j0 := deriveJ0 s.h s.chan.iv, ctr := inc32 (deriveJ0 s.h s.chan.iv)
        ksBuf := 0#128, ksPos := 16
        y := ghash s.h (blocks s.chan.aad)
        ghBuf := zeroBuf, ghFill := 0, aadBits := bitlen s.chan.aad, ctBits := 0#64
        resp := some ⟨.ok, [], []⟩ })

/-- R170: UPDATE in Active answers OK with as many bytes as it was given, counts their bits, and
writes no register but CTR, KS_BUF, KS_POS, Y, GH_BUF, GH_FILL and CT_BITS. The high 96 bits of
CTR stay as they are (10_state.md R27, 42_ctr_keystream.md R140). -/
def Obligations.UpdateCompletesWithItsFrame : Prop :=
  ∀ (s : State) (handle : KeyHandle), s.operandsFit .update = true → s.ctxState = .active →
    s.kh = some handle →
    ∃ t out, exec .update s = .next t ∧ t.resp = some ⟨.ok, out, []⟩ ∧
      out.length = s.chan.din.length ∧ t.ctBits = s.ctBits + bitlen s.chan.din ∧
      t.ctxState = .active ∧ t.kh = s.kh ∧ t.h = s.h ∧ t.dir = s.dir ∧ t.j0 = s.j0 ∧
      t.aadBits = s.aadBits ∧ t.ctr.extractLsb' 32 96 = s.ctr.extractLsb' 32 96 ∧
      SameOutside s t

/-- R170, 42_ctr_keystream.md R145, 10_state.md R35: in an operation whose ciphertext so far is
`ct`, UPDATE puts out its chunk combined with the keystream from byte number `ct.length` on, and
leaves the registers of the operation with the chunk's CIPHERTEXT absorbed (41_ghash.md R127). With
CTX_STATE, KH, H, DIR, J0 as they were and the unused bytes of GH_BUF still 0x00 (R123), that fixes
every register after it; KS_BUF stays where the chunk is empty. What Decrypt puts out is a value, of
which no authenticity is claimed (70_reset_and_hazards.md R241, I19). -/
def Obligations.UpdateTransformsAndAbsorbs : Prop :=
  ∀ (s : State) (handle : KeyHandle) (aad ct : Bytes),
    s.operandsFit .update = true → s.ctxState = .active → s.kh = some handle →
    OperationAt (Config.bcEnc handle) aad ct s →
    ∃ t, exec .update s = .next t ∧
      t.resp = some ⟨.ok, xorBytes s.chan.din
        (keystreamFrom (Config.bcEnc handle) s.j0 ct.length s.chan.din.length), []⟩ ∧
      OperationAt (Config.bcEnc handle) aad
        (ct ++ match s.dir with
          | .encrypt => xorBytes s.chan.din
              (keystreamFrom (Config.bcEnc handle) s.j0 ct.length s.chan.din.length)
          | .decrypt => s.chan.din) t ∧
      t.ctxState = .active ∧ t.kh = s.kh ∧ t.h = s.h ∧ t.dir = s.dir ∧ t.j0 = s.j0 ∧
      (TailZero s → TailZero t) ∧ (s.chan.din = [] → t.ksBuf = s.ksBuf) ∧ SameOutside s t

/-- R170, corner case: an empty chunk changes nothing but the response. -/
def Obligations.EmptyUpdateChangesNothing : Prop :=
  ∀ (s : State) (handle : KeyHandle), s.ctxState = .active → s.kh = some handle →
    s.chan.din = [] → exec .update s = .next { s with resp := some ⟨.ok, [], []⟩ }

/-- 10_state.md R35 at its beginning: a START puts the registers where an operation with its AAD
and no ciphertext has them, whatever the block cipher, with every byte of GH_BUF 0x00 (R30). -/
def Obligations.StartEstablishesOperation : Prop :=
  ∀ (s t : State) (enc : Block → Block) (i : Instr), (i = .startEnc ∨ i = .startDec) →
    s.ctxState = .keyBound → exec i s = .next t → OperationAt enc s.chan.aad [] t ∧ TailZero t

/-- R176: FINISH answers InvalidState outside Active, else InvalidTagLength for a length outside 4
to 16 or, in Decrypt, a supplied tag of another length, and changes nothing then. Else it ends the
operation: every operation register cleared, the key kept, Finalized. In Encrypt it puts the tag
out (FINALIZE, TAG_FULL and TRUNC, `operationTag`); in Decrypt it answers only whether the supplied
tag is the operation's. A key is bound in Active (10_state.md R23), and TAGIN is within the operand
bound, where there is one (log 6). -/
def Obligations.FinishEndsOperation : Prop :=
  ∀ (s : State) (n : Nat), s.operandsFit (.finish n) = true →
    (s.ctxState ≠ .active →
      exec (.finish n) s = .next { s with resp := some ⟨.invalidState, [], []⟩ }) ∧
    (s.ctxState = .active →
      ((n < 4 ∨ 16 < n) ∨ (s.dir = .decrypt ∧ s.chan.tagin.length ≠ n)) →
      exec (.finish n) s = .next { s with resp := some ⟨.invalidTagLength, [], []⟩ }) ∧
    (∀ handle : KeyHandle, s.ctxState = .active → s.kh = some handle → 4 ≤ n → n ≤ 16 →
      (s.dir = .decrypt → s.chan.tagin.length = n) →
      exec (.finish n) s = .next { s with
        ctxState := .finalized
        dir := .encrypt, j0 := 0#128, ctr := 0#128, ksBuf := 0#128, ksPos := 16, y := 0#128
        ghBuf := zeroBuf, ghFill := 0, aadBits := 0#64, ctBits := 0#64
        resp := some (match s.dir with
          | .encrypt => ⟨.ok, [], operationTag (Config.bcEnc handle) n s⟩
          | .decrypt =>
            if operationTag (Config.bcEnc handle) n s = s.chan.tagin then ⟨.ok, [], []⟩
            else ⟨.authenticationFailure, [], []⟩) })

/-- R176 with 41_ghash.md R126 and 44_tag.md R190, R191: the tag of an operation with associated
data `aad` and ciphertext `ct` is the leading n bytes of BC.enc(KH, J0) ⊕ S, S in its closed
form. -/
def Obligations.OperationTagClosedForm : Prop :=
  ∀ (s : State) (enc : Block → Block) (aad ct : Bytes) (n : Nat), OperationAt enc aad ct s →
    operationTag enc n s =
      (bytes16 (enc s.j0 ^^^ ghash s.h
        (blocks aad ++ blocks ct ++ [lengthBlock (bitlen aad) (bitlen ct)]))).take n

/-- 10_state.md R23 rules out an Active context without a key, and the spec gives `BC.enc(NONE, v)`
no meaning: there UPDATE, and a FINISH that passes its checks, stop with the model's own fault
(log 9). -/
def Obligations.ActiveWithoutAKeyStops : Prop :=
  ∀ s : State, s.ctxState = .active → s.kh = none →
    (s.operandsFit .update = true → exec .update s = .fault .noKeyHandle) ∧
    (∀ n, s.operandsFit (.finish n) = true → 4 ≤ n → n ≤ 16 →
      (s.dir = .decrypt → s.chan.tagin.length = n) → exec (.finish n) s = .fault .noKeyHandle)

/-! ## Statuses -/

/-- 60_exceptions.md R201: the numbers of the statuses; 6 to 15 are never returned. -/
def Obligations.StatusNumbers : Prop :=
  Status.code .ok = 0#4 ∧ Status.code .invalidKeyLength = 1#4 ∧
  Status.code .invalidState = 2#4 ∧ Status.code .invalidTagLength = 3#4 ∧
  Status.code .authenticationFailure = 4#4 ∧ Status.code .illegalCommand = 5#4 ∧
  (∀ st : Status, (Status.code st).toNat < 6) ∧
  (∀ a b : Status, Status.code a = Status.code b → a = b)

/-- 43_context_commands.md R160, the transition table: a command that is not legal in the present
context state answers InvalidState and changes nothing; a legal one whose operands pass their
checks answers OK, or AuthenticationFailure for a FINISH, and leads where the table says; an
ILLEGAL word changes nothing in any state. `legalIn` and `targetOf` are the table's cells. -/
def Obligations.TransitionTable : Prop :=
  (∀ (i : Instr) (s : State), s.operandsFit i = true → legalIn i s.ctxState = false →
    exec i s = .next { s with resp := some ⟨.invalidState, [], []⟩ }) ∧
  (∀ (i : Instr) (s : State), s.operandsFit i = true → Inv s → legalIn i s.ctxState = true →
    operandError i s = none →
    ∃ t r, exec i s = .next t ∧ t.resp = some r ∧ t.ctxState = targetOf i ∧
      (r.status = .ok ∨ (r.status = .authenticationFailure ∧ ∃ n, i = .finish n))) ∧
  (∀ (s : State) (c : Command) (rest : List Event), s.pending = .command c :: rest →
    (∀ i : Instr, i.wellFormed = true → c.word ≠ encode i) →
    ∃ t, step s = .next t ∧ t.resp = some ⟨.illegalCommand, [], []⟩ ∧ t.ctxState = s.ctxState)

/-- 60_exceptions.md R203: a command returns exactly one status, the first that applies in the
order IllegalCommand, InvalidState, the operand check, AuthenticationFailure, and OK when none
applies. -/
def Obligations.StatusPrecedence : Prop :=
  ∀ (s p : State) (c : Command) (rest : List Event), Inv s → s.pending = .command c :: rest →
    p = { s with chan := c.chan, pending := rest } →
    (∀ i, decode c.word = .ok i → p.operandsFit i = true) →
    ∃ t r, step s = .next t ∧ t.resp = some r ∧
      ((∀ i, decode c.word ≠ .ok i) → r.status = .illegalCommand) ∧
      (∀ i, decode c.word = .ok i →
        (legalIn i p.ctxState = false → r.status = .invalidState) ∧
        (legalIn i p.ctxState = true → ∀ e, operandError i p = some e → r.status = e) ∧
        (legalIn i p.ctxState = true → operandError i p = none → tagDiffers i p →
          r.status = .authenticationFailure) ∧
        (legalIn i p.ctxState = true → operandError i p = none → ¬ tagDiffers i p →
          r.status = .ok))

/-- R204: a command that returns IllegalCommand, InvalidState, InvalidKeyLength or InvalidTagLength
writes no register, and its results are empty. -/
def Obligations.RejectedCommandWritesNoRegister : Prop :=
  ∀ (s t : State) (c : Command) (rest : List Event) (r : Response),
    s.pending = .command c :: rest → step s = .next t → t.resp = some r →
    (r.status = .illegalCommand ∨ r.status = .invalidState ∨ r.status = .invalidKeyLength ∨
      r.status = .invalidTagLength) →
    SameRegisters s t ∧ r.dout = [] ∧ r.tagout = []

/-- R205: AuthenticationFailure is a completed FINISH of a Decrypt operation: Finalized, every
operation register cleared, empty results, the key kept. -/
def Obligations.AuthenticationFailureIsCompletedFinish : Prop :=
  ∀ (s t : State) (c : Command) (rest : List Event) (r : Response),
    s.pending = .command c :: rest → step s = .next t → t.resp = some r →
    r.status = .authenticationFailure →
    s.ctxState = .active ∧ s.dir = .decrypt ∧ (∃ n, decode c.word = .ok (.finish n)) ∧
      t.ctxState = .finalized ∧ OpCleared t ∧ t.kh = s.kh ∧ t.h = s.h ∧
      r.dout = [] ∧ r.tagout = []

/-- 30_encoding.md R72: a result channel is empty unless the status is OK; DOUT comes from UPDATE
alone and TAGOUT from FINISH of an Encrypt operation alone, of the lengths the table gives. -/
def Obligations.ResultChannels : Prop :=
  ∀ (i : Instr) (s t : State) (r : Response), exec i s = .next t → t.resp = some r →
    (r.status ≠ .ok → r.dout = [] ∧ r.tagout = []) ∧
    (i ≠ .update → r.dout = []) ∧
    (i = .update → r.status = .ok → r.dout.length = s.chan.din.length) ∧
    ((∀ n, i ≠ .finish n) → r.tagout = []) ∧
    (∀ n, i = .finish n → s.dir = .encrypt → r.status = .ok → r.tagout.length = n) ∧
    (∀ n, i = .finish n → s.dir = .decrypt → r.tagout = [])

/-- 43_context_commands.md R178, and R177, which the spec derives: FINISH of an Encrypt operation returns a tag of exactly
TAGLEN bytes on OK and no status but OK, InvalidState and InvalidTagLength; FINISH of a Decrypt
operation carries only its status. -/
def Obligations.FinishReleasesOnlyItsResult : Prop :=
  ∀ (s t : State) (n : Nat) (r : Response), exec (.finish n) s = .next t → t.resp = some r →
    (s.dir = .encrypt → r.dout = [] ∧ (r.status = .ok → r.tagout.length = n) ∧
      (r.status = .ok ∨ r.status = .invalidState ∨ r.status = .invalidTagLength)) ∧
    (s.dir = .decrypt → r.dout = [] ∧ r.tagout = [])

/-! ## The whole machine -/

/-- The invariant holds after reset (70_reset_and_hazards.md R230). -/
def Obligations.ResetMeetsTheInvariant : Prop := Inv State.reset

/-- 10_state.md R23, R24, R27, R34, R35 and the zero tail of GH_BUF (R30, R123) together: from every state that meets them, every step
leads to a state that meets them. -/
def Obligations.StepKeepsTheInvariant : Prop :=
  ∀ s t : State, Inv s → step s = .next t → Inv t

/-- R34, which the spec derives, is kept by every step on its own: outside Active every operation register is cleared. -/
def Obligations.ClearedOutsideActiveIsKept : Prop :=
  ∀ s t : State, (s.ctxState ≠ .active → OpCleared s) → step s = .next t →
    t.ctxState ≠ .active → OpCleared t

/-- 20_memory.md R56, 60_exceptions.md R200: from a state that meets the invariant no step faults,
and the core answers every event but overlapping commands and a command with an operand over the
bound: it is enough that the operands the decoded command reads fit (20_memory.md R51, log 6). -/
def Obligations.EveryEventIsAnswered : Prop :=
  ∀ s : State, Inv s →
    (∀ f, step s ≠ .fault f) ∧
    ((∀ a b rest, s.pending ≠ .overlapping a b :: rest) →
      (∀ c rest i, s.pending = .command c :: rest → decode c.word = .ok i →
        State.operandsFit { s with chan := c.chan, pending := rest } i = true) →
      ∃ t, step s = .next t)

/-- R23, R24: only a successful BIND_KEY and hardware reset write KH and H. -/
def Obligations.OnlyBindKeyAndResetWriteTheKey : Prop :=
  ∀ s t : State, step s = .next t → ¬ (t.kh = s.kh ∧ t.h = s.h) →
    (∃ cut rest, s.pending = .hardwareReset cut :: rest) ∨
    (∃ c rest, s.pending = .command c :: rest ∧ c.word = 0x00000001#32 ∧
      t.ctxState = .keyBound ∧ t.resp = some ⟨.ok, [], []⟩)

/-- 43_context_commands.md R181: once Active, only a FINISH that passes its checks and hardware
reset leave it. -/
def Obligations.OnlyFinishAndResetLeaveActive : Prop :=
  ∀ s t : State, s.ctxState = .active → step s = .next t → t.ctxState ≠ .active →
    (∃ cut rest, s.pending = .hardwareReset cut :: rest) ∨
    (∃ c rest n, s.pending = .command c :: rest ∧ c.word = encode (.finish n) ∧ 4 ≤ n ∧ n ≤ 16 ∧
      (s.dir = .decrypt → c.chan.tagin.length = n) ∧ t.ctxState = .finalized)

/-- R180: after Finalized only a successful BIND_KEY and hardware reset change the context state,
and a START is answered with InvalidState until then. -/
def Obligations.OnlyBindKeyAndResetLeaveFinalized : Prop :=
  (∀ s t : State, s.ctxState = .finalized → step s = .next t → t.ctxState ≠ .finalized →
    (∃ cut rest, s.pending = .hardwareReset cut :: rest) ∨
    (∃ c rest, s.pending = .command c :: rest ∧ c.word = 0x00000001#32 ∧
      t.ctxState = .keyBound)) ∧
  (∀ (s : State) (i : Instr), (i = .startEnc ∨ i = .startDec) → s.ctxState = .finalized →
    s.operandsFit i = true → exec i s = .next { s with resp := some ⟨.invalidState, [], []⟩ })

/-- R25, R26, R27, 41_ghash.md R128: while an operation goes on, its direction, its J0, the high 96
bits of its counter and its AAD count stay what START made them, and the key stays. -/
def Obligations.OperationParametersAreFixed : Prop :=
  ∀ s t : State, s.ctxState = .active → t.ctxState = .active → step s = .next t →
    t.dir = s.dir ∧ t.j0 = s.j0 ∧ t.aadBits = s.aadBits ∧ t.kh = s.kh ∧ t.h = s.h ∧
      t.ctr.extractLsb' 32 96 = s.ctr.extractLsb' 32 96

/-- 20_memory.md R52 and the frame of every command: it modifies none of its operands, nor what the
host will do next, nor the operand bound. -/
def Obligations.NoCommandModifiesItsOperands : Prop :=
  ∀ (i : Instr) (s t : State), exec i s = .next t → SameOutside s t

/-- 20_memory.md R51, 30_encoding.md R79: a channel the command does not read has no effect. -/
def Obligations.UnusedChannelsAreNotRead : Prop :=
  ∀ (i : Instr) (s t : State) (other : Channels),
    operandsOf i { s with chan := other } = operandsOf i s → exec i s = .next t →
    exec i { s with chan := other } = .next { t with chan := other }

/-- 10_state.md R36: no command reads an earlier command's response. -/
def Obligations.EarlierResponseIsNotRead : Prop :=
  ∀ (i : Instr) (s : State) (r : Option Response), exec i { s with resp := r } = exec i s

/-- 20_memory.md R57, which the spec derives from R161: BIND_KEY issued twice with the same key leaves the same state as once. -/
def Obligations.BindKeyTwiceIsOnce : Prop :=
  ∀ s t : State, exec .bindKey s = .next t → t.resp = some ⟨.ok, [], []⟩ →
    exec .bindKey t = .next t

/-! ## The field and GHASH -/

/-- 40_gf128_multiplier.md R101: GFMUL(X, Y) is the block of X(x)·Y(x) mod P(x), with the rule's
example x^127 · x. The reading of a block as a polynomial is that of R100 (log 15). -/
def Obligations.GfmulIsTheFieldProduct : Prop :=
  (∀ x y : Block, toPoly (gfmul x y) = (toPoly x * toPoly y) %ₘ gcmPoly) ∧
  gfmul 0x00000000000000000000000000000001#128 0x40000000000000000000000000000000#128 =
    0xe1000000000000000000000000000000#128

/-- R103, which the spec derives from R100 and R101, the ring laws: commutativity, associativity, distribution over XOR, the identity ONE and
the annihilating zero. -/
def Obligations.GfmulRingLaws : Prop :=
  (∀ x y : Block, gfmul x y = gfmul y x) ∧
  (∀ x y z : Block, gfmul (gfmul x y) z = gfmul x (gfmul y z)) ∧
  (∀ x x' y : Block, gfmul (x ^^^ x') y = gfmul x y ^^^ gfmul x' y) ∧
  (∀ y : Block, gfmul gfOne y = y) ∧
  (∀ y : Block, gfmul 0#128 y = 0#128)

/-- R103, which the spec derives from R100 and R101: there are no zero divisors. -/
def Obligations.GfmulHasNoZeroDivisors : Prop :=
  ∀ x y : Block, gfmul x y = 0#128 → x = 0#128 ∨ y = 0#128

/-- 00_scope.md R11: blk and bytes16 are inverse to each other. -/
def Obligations.BytesAndBlocksAreInverse : Prop :=
  (∀ b : Bytes, b.length = 16 → bytes16 (blk b) = b) ∧ (∀ v : Block, blk (bytes16 v) = v)

/-- 41_ghash.md R122: absorbing AAD hashes the same as absorbing it followed by the zero bytes to
the next 16-byte boundary, and those zero bytes are not counted. -/
def Obligations.AadPaddingIsHashedNotCounted : Prop :=
  ∀ (a : Bytes) (s : State),
    (absorbAad (a ++ List.replicate ((16 - a.length % 16) % 16) 0x00#8) s).y = (absorbAad a s).y ∧
    (absorbAad a s).aadBits = BitVec.ofNat 64 (8 * a.length)

/-- 41_ghash.md R126, which the spec derives from R121 to R125, closed form of S: in whatever chunks
the ciphertext was absorbed. It is a statement about the accumulator's operations; UPDATE and FINISH
reach them through UpdateTransformsAndAbsorbs and OperationTagClosedForm. -/
def Obligations.GhashClosedForm : Prop :=
  ∀ (s : State) (aad : Bytes) (chunks : List Bytes), OpCleared s →
    (finalize (chunks.foldl (fun t c => absorbCt c t) (absorbAad aad s))).y =
      ghash s.h (blocks aad ++ blocks chunks.flatten ++
        [lengthBlock (bitlen aad) (bitlen chunks.flatten)])

/-! ## The counter -/

/-- 42_ctr_keystream.md R140: inc32 adds one to the low 32 bits modulo 2^32 and leaves the high 96
bits, with the rule's corner case and example. -/
def Obligations.IncrementIsOfTheLow32Bits : Prop :=
  (∀ v : Block, (inc32 v).extractLsb' 32 96 = v.extractLsb' 32 96 ∧
    (inc32 v).extractLsb' 0 32 = v.extractLsb' 0 32 + 1#32) ∧
  (∀ v : Block, v.extractLsb' 0 32 = 0xFFFFFFFF#32 → (inc32 v).extractLsb' 0 32 = 0#32) ∧
  inc32 0xcafebabefacedbaddecaf888ffffffff#128 = 0xcafebabefacedbaddecaf88800000000#128

/-- R147: counter blocks repeat with period 2^32, and no sooner. -/
def Obligations.CounterPeriod : Prop :=
  (∀ v : Block, inc32Times (2 ^ 32) v = v) ∧
  (∀ (v : Block) (n : Nat), 0 < n → n < 2 ^ 32 → inc32Times n v ≠ v)

/-- R142, R148: a 12-byte IV gives the block of its bytes and 00 00 00 01; any other length gives
the full GHASH formula, which for the empty IV is 0^128 whatever H is. -/
def Obligations.InitialCounterBlock : Prop :=
  (∀ (h : Block) (iv : Bytes), iv.length = 12 →
    bytes16 (deriveJ0 h iv) = iv ++ [0x00#8, 0x00#8, 0x00#8, 0x01#8]) ∧
  (∀ (h : Block) (iv : Bytes), iv.length ≠ 12 →
    deriveJ0 h iv = ghash h (blocks iv ++ [lengthBlock 0#64 (bitlen iv)])) ∧
  (∀ h : Block, deriveJ0 h [] = 0#128)

/-! ## The tag -/

/-- 44_tag.md R192: TAG_EQ of two strings of one length is equality. -/
def Obligations.TagComparisonIsEquality : Prop :=
  ∀ a b : Bytes, a.length = b.length → (tagEq a b = true ↔ a = b)

/-- R195, which the spec derives from R176, R190 and R191: the tag of length n is the first n bytes of the tag of length 16. -/
def Obligations.TruncationConsistency : Prop :=
  ∀ (s : State) (handle : KeyHandle) (n : Nat), s.ctxState = .active → s.kh = some handle →
    s.dir = .encrypt → 4 ≤ n → n ≤ 16 →
    ∃ t full tag, exec (.finish n) s = .next t ∧ exec (.finish 16) s = .next full ∧
      full.resp = some ⟨.ok, [], tag⟩ ∧ tag.length = 16 ∧ t.resp = some ⟨.ok, [], tag.take n⟩

/-- 43_context_commands.md R184 (a), which the spec derives: one flipped bit of the tag always fails. -/
def Obligations.TamperedTagIsRejected : Prop :=
  ∀ (s : State) (handle : KeyHandle) (n i k : Nat), s.ctxState = .active →
    s.kh = some handle → s.dir = .decrypt → 4 ≤ n → n ≤ 16 → i < n → k < 8 →
    s.chan.tagin = flipBit (operationTag (Config.bcEnc handle) n s) i k →
    s.operandsFit (.finish n) = true →
    ∃ t, exec (.finish n) s = .next t ∧ t.resp = some ⟨.authenticationFailure, [], []⟩ ∧
      t.ctxState = .finalized

/-- R184 (b), which the spec derives from R103 and R126: with n = 16 and H not zero, one flipped bit of the ciphertext or of the AAD fails:
the tag of an operation (s) is not the tag of the operation (s') with that bit flipped. -/
def Obligations.TamperedDataIsRejected : Prop :=
  ∀ (s s' : State) (handle : KeyHandle) (aad ct aad' ct' : Bytes),
    OperationAt (Config.bcEnc handle) aad ct s → OperationAt (Config.bcEnc handle) aad' ct' s' →
    s'.h = s.h → s'.j0 = s.j0 → s.h ≠ 0#128 →
    (OneBitFlipped aad aad' ∧ ct' = ct) ∨ (aad' = aad ∧ OneBitFlipped ct ct') →
    s'.ctxState = .active → s'.kh = some handle → s'.dir = .decrypt →
    s'.chan.tagin = operationTag (Config.bcEnc handle) 16 s →
    s'.operandsFit (.finish 16) = true →
    ∃ t, exec (.finish 16) s' = .next t ∧ t.resp = some ⟨.authenticationFailure, [], []⟩

/-! ## Whole operations -/

/-- 00_scope.md R3 with R126, R145, R176: sealing a message given in any chunks puts out the
plaintext combined with the keystream, and the tag of the closed form; every command is answered
with OK. -/
def Obligations.SealComputesGcm : Prop :=
  ∀ (s : State) (key iv aad : Bytes) (chunks : List Bytes) (n : Nat) (handle : KeyHandle)
    (h j0 : Block) (ct : Bytes),
    s.ctxState ≠ .active → s.maxOperandBytes = none → keyLenOk key.length = true →
    tagLenOk n = true → handle = Config.bcBind key → h = Config.bcEnc handle 0#128 →
    j0 = deriveJ0 h iv →
    ct = xorBytes chunks.flatten
      (keystreamFrom (Config.bcEnc handle) j0 0 chunks.flatten.length) →
    ∃ rs t, runLines (sealLines key iv aad chunks n) s = some (rs, t) ∧ allOk rs = true ∧
      rs.length = chunks.length + 3 ∧ (updateOutputs rs).flatten = ct ∧
      finalTag rs = (bytes16 (Config.bcEnc handle j0 ^^^ ghash h
        (blocks aad ++ blocks ct ++ [lengthBlock (bitlen aad) (bitlen ct)]))).take n

/-- The Decrypt direction of the same (R170, R176): opening a ciphertext given in any chunks puts
out the ciphertext combined with the keystream, every command but the last is answered with OK, and
the last with OK exactly when the supplied tag is the one of the closed form, else with
AuthenticationFailure. The output is stated as a value also where FINISH fails: no authenticity is
claimed of it (70_reset_and_hazards.md R241, I19). -/
def Obligations.OpenVerifiesGcm : Prop :=
  ∀ (s : State) (key iv aad tag : Bytes) (chunks : List Bytes) (handle : KeyHandle)
    (h j0 : Block) (ct expected : Bytes),
    s.ctxState ≠ .active → s.maxOperandBytes = none → keyLenOk key.length = true →
    tagLenOk tag.length = true → handle = Config.bcBind key →
    h = Config.bcEnc handle 0#128 → j0 = deriveJ0 h iv → ct = chunks.flatten →
    expected = (bytes16 (Config.bcEnc handle j0 ^^^ ghash h
      (blocks aad ++ blocks ct ++ [lengthBlock (bitlen aad) (bitlen ct)]))).take tag.length →
    ∃ rs t last, runLines (openLines key iv aad chunks tag) s = some (rs ++ [last], t) ∧
      allOk rs = true ∧ rs.length = chunks.length + 2 ∧
      (updateOutputs (rs ++ [last])).flatten =
        xorBytes ct (keystreamFrom (Config.bcEnc handle) j0 0 ct.length) ∧
      t.ctxState = .finalized ∧
      (tag = expected → last = ⟨.ok, [], []⟩) ∧
      (tag ≠ expected → last = ⟨.authenticationFailure, [], []⟩)

/-- 43_context_commands.md R183, which the spec derives: chunk boundaries make no difference, in either direction: the
same output, the same answer to FINISH, and the same state at the end. -/
def Obligations.StreamingEquivalence : Prop :=
  ∀ (s : State) (key iv aad : Bytes) (chunks chunks' : List Bytes),
    s.ctxState ≠ .active → s.maxOperandBytes = none → keyLenOk key.length = true →
    chunks.flatten = chunks'.flatten →
    (∀ n, tagLenOk n = true → ∃ rs rs' t,
      runLines (sealLines key iv aad chunks n) s = some (rs, t) ∧
      runLines (sealLines key iv aad chunks' n) s = some (rs', t) ∧
      (updateOutputs rs).flatten = (updateOutputs rs').flatten ∧ rs.getLast? = rs'.getLast?) ∧
    (∀ tag : Bytes, tagLenOk tag.length = true → ∃ rs rs' t,
      runLines (openLines key iv aad chunks tag) s = some (rs, t) ∧
      runLines (openLines key iv aad chunks' tag) s = some (rs', t) ∧
      (updateOutputs rs).flatten = (updateOutputs rs').flatten ∧ rs.getLast? = rs'.getLast?)

/-- R182, which the spec derives, round trip: opening what was sealed, with the same key, IV and AAD and in the same
chunks, returns every plaintext chunk and OK throughout, from whatever states the two operations
begin. -/
def Obligations.SealThenOpenRoundTrip : Prop :=
  ∀ (s s' : State) (key iv aad : Bytes) (chunks : List Bytes) (n : Nat),
    s.ctxState ≠ .active → s.maxOperandBytes = none → s'.ctxState ≠ .active →
    s'.maxOperandBytes = none → keyLenOk key.length = true → tagLenOk n = true →
    ∃ rs t, runLines (sealLines key iv aad chunks n) s = some (rs, t) ∧ allOk rs = true ∧
      ∃ rs' t', runLines (openLines key iv aad (updateOutputs rs) (finalTag rs)) s' =
          some (rs', t') ∧
        allOk rs' = true ∧ updateOutputs rs' = chunks
end

