-- ==== Sys2Proof/Laws/Blocks.lean ====
section
/-! SUPPORT. Lengths of byte strings and blocks, and the multiplier's loop unfolded by one round. -/

namespace Sys2Proof.Machine

@[simp] theorem bytes16_length (v : Block) : (bytes16 v).length = 16 := by simp [bytes16]

/-- TRUNC of a legal length gives that many bytes (44_tag.md R191). -/
theorem trunc_length (t : Block) (n : Nat) (bound : n ≤ 16) : (trunc t n).length = n := by
  simp [trunc, firstBytes]; omega

/-- A padded string has a whole number of blocks (00_scope.md R11). -/
theorem pad16_length_mod (b : Bytes) : (pad16 b).length % 16 = 0 := by
  simp [pad16]; omega

/-- A string of whole blocks is not padded. -/
theorem pad16_of_aligned (b : Bytes) (aligned : b.length % 16 = 0) : pad16 b = b := by
  simp [pad16, aligned]

@[simp] theorem blocks_nil : blocks [] = [] := rfl

/-- The number of blocks of a string, the last one counted whole. -/
theorem blocks_length (b : Bytes) : (blocks b).length = (b.length + 15) / 16 := by
  simp [blocks, pad16]; omega

/-- A string of whole blocks has the same blocks padded and unpadded. -/
theorem blocks_of_aligned (b : Bytes) (aligned : b.length % 16 = 0) : blocks b = fullBlocks b := by
  simp [blocks, fullBlocks, pad16_of_aligned b aligned]

/-! ### The multiplier (40_gf128_multiplier.md R102) -/

theorem gfmul_eq (x y : Block) : gfmul x y = gfmulLoop x 128 0 0#128 y := by rw [gfmul]

@[simp] theorem gfmulLoop_zero (x : Block) (i : Nat) (z v : Block) :
    gfmulLoop x 0 i z v = z := rfl

theorem gfmulLoop_succ (x : Block) (left i : Nat) (z v : Block) :
    gfmulLoop x (left + 1) i z v =
      gfmulLoop x left (i + 1) (if gcmBit x i then z ^^^ v else z) (mulX v) := rfl

/-- What stands in Z at first is only added to what the loop computes. -/
theorem gfmulLoop_start (x : Block) (left i : Nat) (z v : Block) :
    gfmulLoop x left i z v = z ^^^ gfmulLoop x left i 0#128 v := by
  induction left generalizing i z v with
  | zero => simp
  | succ left ih =>
    rw [gfmulLoop_succ, gfmulLoop_succ, ih, ih (z := if gcmBit x i then 0#128 ^^^ v else 0#128)]
    split <;> simp [BitVec.xor_assoc]

end Sys2Proof.Machine
end

