-- ==== Sys2Proof/Laws/State.lean ====
section
/-! SUPPORT. One lemma per field per update of State, each true by rfl, so that no later proof
unfolds a record update. -/

namespace Sys2Proof.Machine

/-! ### `State.respond` -/

@[simp] theorem State.respond_ctxState (s : State) (status : Status) (dout tagout : Bytes) :
    (s.respond status dout tagout).ctxState = s.ctxState := rfl
@[simp] theorem State.respond_kh (s : State) (status : Status) (dout tagout : Bytes) :
    (s.respond status dout tagout).kh = s.kh := rfl
@[simp] theorem State.respond_h (s : State) (status : Status) (dout tagout : Bytes) :
    (s.respond status dout tagout).h = s.h := rfl
@[simp] theorem State.respond_dir (s : State) (status : Status) (dout tagout : Bytes) :
    (s.respond status dout tagout).dir = s.dir := rfl
@[simp] theorem State.respond_j0 (s : State) (status : Status) (dout tagout : Bytes) :
    (s.respond status dout tagout).j0 = s.j0 := rfl
@[simp] theorem State.respond_ctr (s : State) (status : Status) (dout tagout : Bytes) :
    (s.respond status dout tagout).ctr = s.ctr := rfl
@[simp] theorem State.respond_ksBuf (s : State) (status : Status) (dout tagout : Bytes) :
    (s.respond status dout tagout).ksBuf = s.ksBuf := rfl
@[simp] theorem State.respond_ksPos (s : State) (status : Status) (dout tagout : Bytes) :
    (s.respond status dout tagout).ksPos = s.ksPos := rfl
@[simp] theorem State.respond_y (s : State) (status : Status) (dout tagout : Bytes) :
    (s.respond status dout tagout).y = s.y := rfl
@[simp] theorem State.respond_ghBuf (s : State) (status : Status) (dout tagout : Bytes) :
    (s.respond status dout tagout).ghBuf = s.ghBuf := rfl
@[simp] theorem State.respond_ghFill (s : State) (status : Status) (dout tagout : Bytes) :
    (s.respond status dout tagout).ghFill = s.ghFill := rfl
@[simp] theorem State.respond_aadBits (s : State) (status : Status) (dout tagout : Bytes) :
    (s.respond status dout tagout).aadBits = s.aadBits := rfl
@[simp] theorem State.respond_ctBits (s : State) (status : Status) (dout tagout : Bytes) :
    (s.respond status dout tagout).ctBits = s.ctBits := rfl
@[simp] theorem State.respond_chan (s : State) (status : Status) (dout tagout : Bytes) :
    (s.respond status dout tagout).chan = s.chan := rfl
@[simp] theorem State.respond_resp (s : State) (status : Status) (dout tagout : Bytes) :
    (s.respond status dout tagout).resp = some ⟨status, dout, tagout⟩ := rfl
@[simp] theorem State.respond_pending (s : State) (status : Status) (dout tagout : Bytes) :
    (s.respond status dout tagout).pending = s.pending := rfl
@[simp] theorem State.respond_maxOperandBytes (s : State) (status : Status) (dout tagout : Bytes) :
    (s.respond status dout tagout).maxOperandBytes = s.maxOperandBytes := rfl

/-! ### `State.fail` -/

@[simp] theorem State.fail_ctxState (s : State) (status : Status) :
    (s.fail status).ctxState = s.ctxState := rfl
@[simp] theorem State.fail_kh (s : State) (status : Status) :
    (s.fail status).kh = s.kh := rfl
@[simp] theorem State.fail_h (s : State) (status : Status) :
    (s.fail status).h = s.h := rfl
@[simp] theorem State.fail_dir (s : State) (status : Status) :
    (s.fail status).dir = s.dir := rfl
@[simp] theorem State.fail_j0 (s : State) (status : Status) :
    (s.fail status).j0 = s.j0 := rfl
@[simp] theorem State.fail_ctr (s : State) (status : Status) :
    (s.fail status).ctr = s.ctr := rfl
@[simp] theorem State.fail_ksBuf (s : State) (status : Status) :
    (s.fail status).ksBuf = s.ksBuf := rfl
@[simp] theorem State.fail_ksPos (s : State) (status : Status) :
    (s.fail status).ksPos = s.ksPos := rfl
@[simp] theorem State.fail_y (s : State) (status : Status) :
    (s.fail status).y = s.y := rfl
@[simp] theorem State.fail_ghBuf (s : State) (status : Status) :
    (s.fail status).ghBuf = s.ghBuf := rfl
@[simp] theorem State.fail_ghFill (s : State) (status : Status) :
    (s.fail status).ghFill = s.ghFill := rfl
@[simp] theorem State.fail_aadBits (s : State) (status : Status) :
    (s.fail status).aadBits = s.aadBits := rfl
@[simp] theorem State.fail_ctBits (s : State) (status : Status) :
    (s.fail status).ctBits = s.ctBits := rfl
@[simp] theorem State.fail_chan (s : State) (status : Status) :
    (s.fail status).chan = s.chan := rfl
@[simp] theorem State.fail_resp (s : State) (status : Status) :
    (s.fail status).resp = some ⟨status, [], []⟩ := rfl
@[simp] theorem State.fail_pending (s : State) (status : Status) :
    (s.fail status).pending = s.pending := rfl
@[simp] theorem State.fail_maxOperandBytes (s : State) (status : Status) :
    (s.fail status).maxOperandBytes = s.maxOperandBytes := rfl

/-! ### `State.clearOp` -/

@[simp] theorem State.clearOp_ctxState (s : State) :
    s.clearOp.ctxState = s.ctxState := rfl
@[simp] theorem State.clearOp_kh (s : State) :
    s.clearOp.kh = s.kh := rfl
@[simp] theorem State.clearOp_h (s : State) :
    s.clearOp.h = s.h := rfl
@[simp] theorem State.clearOp_dir (s : State) :
    s.clearOp.dir = .encrypt := rfl
@[simp] theorem State.clearOp_j0 (s : State) :
    s.clearOp.j0 = 0#128 := rfl
@[simp] theorem State.clearOp_ctr (s : State) :
    s.clearOp.ctr = 0#128 := rfl
@[simp] theorem State.clearOp_ksBuf (s : State) :
    s.clearOp.ksBuf = 0#128 := rfl
@[simp] theorem State.clearOp_ksPos (s : State) :
    s.clearOp.ksPos = 16 := rfl
@[simp] theorem State.clearOp_y (s : State) :
    s.clearOp.y = 0#128 := rfl
@[simp] theorem State.clearOp_ghBuf (s : State) :
    s.clearOp.ghBuf = zeroBuf := rfl
@[simp] theorem State.clearOp_ghFill (s : State) :
    s.clearOp.ghFill = 0 := rfl
@[simp] theorem State.clearOp_aadBits (s : State) :
    s.clearOp.aadBits = 0#64 := rfl
@[simp] theorem State.clearOp_ctBits (s : State) :
    s.clearOp.ctBits = 0#64 := rfl
@[simp] theorem State.clearOp_chan (s : State) :
    s.clearOp.chan = s.chan := rfl
@[simp] theorem State.clearOp_resp (s : State) :
    s.clearOp.resp = s.resp := rfl
@[simp] theorem State.clearOp_pending (s : State) :
    s.clearOp.pending = s.pending := rfl
@[simp] theorem State.clearOp_maxOperandBytes (s : State) :
    s.clearOp.maxOperandBytes = s.maxOperandBytes := rfl

/-! ### `State.hardwareReset` -/

@[simp] theorem State.hardwareReset_ctxState (s : State) :
    s.hardwareReset.ctxState = .uninitialized := rfl
@[simp] theorem State.hardwareReset_kh (s : State) :
    s.hardwareReset.kh = none := rfl
@[simp] theorem State.hardwareReset_h (s : State) :
    s.hardwareReset.h = 0#128 := rfl
@[simp] theorem State.hardwareReset_dir (s : State) :
    s.hardwareReset.dir = .encrypt := rfl
@[simp] theorem State.hardwareReset_j0 (s : State) :
    s.hardwareReset.j0 = 0#128 := rfl
@[simp] theorem State.hardwareReset_ctr (s : State) :
    s.hardwareReset.ctr = 0#128 := rfl
@[simp] theorem State.hardwareReset_ksBuf (s : State) :
    s.hardwareReset.ksBuf = 0#128 := rfl
@[simp] theorem State.hardwareReset_ksPos (s : State) :
    s.hardwareReset.ksPos = 16 := rfl
@[simp] theorem State.hardwareReset_y (s : State) :
    s.hardwareReset.y = 0#128 := rfl
@[simp] theorem State.hardwareReset_ghBuf (s : State) :
    s.hardwareReset.ghBuf = zeroBuf := rfl
@[simp] theorem State.hardwareReset_ghFill (s : State) :
    s.hardwareReset.ghFill = 0 := rfl
@[simp] theorem State.hardwareReset_aadBits (s : State) :
    s.hardwareReset.aadBits = 0#64 := rfl
@[simp] theorem State.hardwareReset_ctBits (s : State) :
    s.hardwareReset.ctBits = 0#64 := rfl
@[simp] theorem State.hardwareReset_chan (s : State) :
    s.hardwareReset.chan = Channels.empty := rfl
@[simp] theorem State.hardwareReset_resp (s : State) :
    s.hardwareReset.resp = none := rfl
@[simp] theorem State.hardwareReset_pending (s : State) :
    s.hardwareReset.pending = s.pending := rfl
@[simp] theorem State.hardwareReset_maxOperandBytes (s : State) :
    s.hardwareReset.maxOperandBytes = s.maxOperandBytes := rfl

/-! ### `State.accept` -/

@[simp] theorem State.accept_ctxState (s : State) (c : Command) (rest : List Event) :
    (s.accept c rest).ctxState = s.ctxState := rfl
@[simp] theorem State.accept_kh (s : State) (c : Command) (rest : List Event) :
    (s.accept c rest).kh = s.kh := rfl
@[simp] theorem State.accept_h (s : State) (c : Command) (rest : List Event) :
    (s.accept c rest).h = s.h := rfl
@[simp] theorem State.accept_dir (s : State) (c : Command) (rest : List Event) :
    (s.accept c rest).dir = s.dir := rfl
@[simp] theorem State.accept_j0 (s : State) (c : Command) (rest : List Event) :
    (s.accept c rest).j0 = s.j0 := rfl
@[simp] theorem State.accept_ctr (s : State) (c : Command) (rest : List Event) :
    (s.accept c rest).ctr = s.ctr := rfl
@[simp] theorem State.accept_ksBuf (s : State) (c : Command) (rest : List Event) :
    (s.accept c rest).ksBuf = s.ksBuf := rfl
@[simp] theorem State.accept_ksPos (s : State) (c : Command) (rest : List Event) :
    (s.accept c rest).ksPos = s.ksPos := rfl
@[simp] theorem State.accept_y (s : State) (c : Command) (rest : List Event) :
    (s.accept c rest).y = s.y := rfl
@[simp] theorem State.accept_ghBuf (s : State) (c : Command) (rest : List Event) :
    (s.accept c rest).ghBuf = s.ghBuf := rfl
@[simp] theorem State.accept_ghFill (s : State) (c : Command) (rest : List Event) :
    (s.accept c rest).ghFill = s.ghFill := rfl
@[simp] theorem State.accept_aadBits (s : State) (c : Command) (rest : List Event) :
    (s.accept c rest).aadBits = s.aadBits := rfl
@[simp] theorem State.accept_ctBits (s : State) (c : Command) (rest : List Event) :
    (s.accept c rest).ctBits = s.ctBits := rfl
@[simp] theorem State.accept_chan (s : State) (c : Command) (rest : List Event) :
    (s.accept c rest).chan = c.chan := rfl
@[simp] theorem State.accept_resp (s : State) (c : Command) (rest : List Event) :
    (s.accept c rest).resp = s.resp := rfl
@[simp] theorem State.accept_pending (s : State) (c : Command) (rest : List Event) :
    (s.accept c rest).pending = rest := rfl
@[simp] theorem State.accept_maxOperandBytes (s : State) (c : Command) (rest : List Event) :
    (s.accept c rest).maxOperandBytes = s.maxOperandBytes := rfl

/-! ### `State.rejectWord` -/

@[simp] theorem State.rejectWord_ctxState (s : State) (why : Illegal) :
    (s.rejectWord why).ctxState = s.ctxState := rfl
@[simp] theorem State.rejectWord_kh (s : State) (why : Illegal) :
    (s.rejectWord why).kh = s.kh := rfl
@[simp] theorem State.rejectWord_h (s : State) (why : Illegal) :
    (s.rejectWord why).h = s.h := rfl
@[simp] theorem State.rejectWord_dir (s : State) (why : Illegal) :
    (s.rejectWord why).dir = s.dir := rfl
@[simp] theorem State.rejectWord_j0 (s : State) (why : Illegal) :
    (s.rejectWord why).j0 = s.j0 := rfl
@[simp] theorem State.rejectWord_ctr (s : State) (why : Illegal) :
    (s.rejectWord why).ctr = s.ctr := rfl
@[simp] theorem State.rejectWord_ksBuf (s : State) (why : Illegal) :
    (s.rejectWord why).ksBuf = s.ksBuf := rfl
@[simp] theorem State.rejectWord_ksPos (s : State) (why : Illegal) :
    (s.rejectWord why).ksPos = s.ksPos := rfl
@[simp] theorem State.rejectWord_y (s : State) (why : Illegal) :
    (s.rejectWord why).y = s.y := rfl
@[simp] theorem State.rejectWord_ghBuf (s : State) (why : Illegal) :
    (s.rejectWord why).ghBuf = s.ghBuf := rfl
@[simp] theorem State.rejectWord_ghFill (s : State) (why : Illegal) :
    (s.rejectWord why).ghFill = s.ghFill := rfl
@[simp] theorem State.rejectWord_aadBits (s : State) (why : Illegal) :
    (s.rejectWord why).aadBits = s.aadBits := rfl
@[simp] theorem State.rejectWord_ctBits (s : State) (why : Illegal) :
    (s.rejectWord why).ctBits = s.ctBits := rfl
@[simp] theorem State.rejectWord_chan (s : State) (why : Illegal) :
    (s.rejectWord why).chan = s.chan := rfl
@[simp] theorem State.rejectWord_resp (s : State) (why : Illegal) :
    (s.rejectWord why).resp = some ⟨.illegalCommand, [], []⟩ := rfl
@[simp] theorem State.rejectWord_pending (s : State) (why : Illegal) :
    (s.rejectWord why).pending = s.pending := rfl
@[simp] theorem State.rejectWord_maxOperandBytes (s : State) (why : Illegal) :
    (s.rejectWord why).maxOperandBytes = s.maxOperandBytes := rfl

/-! ### `State.takeReset` -/

@[simp] theorem State.takeReset_ctxState (s : State) (rest : List Event) :
    (s.takeReset rest).ctxState = .uninitialized := rfl
@[simp] theorem State.takeReset_kh (s : State) (rest : List Event) :
    (s.takeReset rest).kh = none := rfl
@[simp] theorem State.takeReset_h (s : State) (rest : List Event) :
    (s.takeReset rest).h = 0#128 := rfl
@[simp] theorem State.takeReset_dir (s : State) (rest : List Event) :
    (s.takeReset rest).dir = .encrypt := rfl
@[simp] theorem State.takeReset_j0 (s : State) (rest : List Event) :
    (s.takeReset rest).j0 = 0#128 := rfl
@[simp] theorem State.takeReset_ctr (s : State) (rest : List Event) :
    (s.takeReset rest).ctr = 0#128 := rfl
@[simp] theorem State.takeReset_ksBuf (s : State) (rest : List Event) :
    (s.takeReset rest).ksBuf = 0#128 := rfl
@[simp] theorem State.takeReset_ksPos (s : State) (rest : List Event) :
    (s.takeReset rest).ksPos = 16 := rfl
@[simp] theorem State.takeReset_y (s : State) (rest : List Event) :
    (s.takeReset rest).y = 0#128 := rfl
@[simp] theorem State.takeReset_ghBuf (s : State) (rest : List Event) :
    (s.takeReset rest).ghBuf = zeroBuf := rfl
@[simp] theorem State.takeReset_ghFill (s : State) (rest : List Event) :
    (s.takeReset rest).ghFill = 0 := rfl
@[simp] theorem State.takeReset_aadBits (s : State) (rest : List Event) :
    (s.takeReset rest).aadBits = 0#64 := rfl
@[simp] theorem State.takeReset_ctBits (s : State) (rest : List Event) :
    (s.takeReset rest).ctBits = 0#64 := rfl
@[simp] theorem State.takeReset_chan (s : State) (rest : List Event) :
    (s.takeReset rest).chan = Channels.empty := rfl
@[simp] theorem State.takeReset_resp (s : State) (rest : List Event) :
    (s.takeReset rest).resp = none := rfl
@[simp] theorem State.takeReset_pending (s : State) (rest : List Event) :
    (s.takeReset rest).pending = rest := rfl
@[simp] theorem State.takeReset_maxOperandBytes (s : State) (rest : List Event) :
    (s.takeReset rest).maxOperandBytes = s.maxOperandBytes := rfl

/-! ### `State.queueCommand` -/

@[simp] theorem State.queueCommand_ctxState (s : State) (c : Command) :
    (s.queueCommand c).ctxState = s.ctxState := rfl
@[simp] theorem State.queueCommand_kh (s : State) (c : Command) :
    (s.queueCommand c).kh = s.kh := rfl
@[simp] theorem State.queueCommand_h (s : State) (c : Command) :
    (s.queueCommand c).h = s.h := rfl
@[simp] theorem State.queueCommand_dir (s : State) (c : Command) :
    (s.queueCommand c).dir = s.dir := rfl
@[simp] theorem State.queueCommand_j0 (s : State) (c : Command) :
    (s.queueCommand c).j0 = s.j0 := rfl
@[simp] theorem State.queueCommand_ctr (s : State) (c : Command) :
    (s.queueCommand c).ctr = s.ctr := rfl
@[simp] theorem State.queueCommand_ksBuf (s : State) (c : Command) :
    (s.queueCommand c).ksBuf = s.ksBuf := rfl
@[simp] theorem State.queueCommand_ksPos (s : State) (c : Command) :
    (s.queueCommand c).ksPos = s.ksPos := rfl
@[simp] theorem State.queueCommand_y (s : State) (c : Command) :
    (s.queueCommand c).y = s.y := rfl
@[simp] theorem State.queueCommand_ghBuf (s : State) (c : Command) :
    (s.queueCommand c).ghBuf = s.ghBuf := rfl
@[simp] theorem State.queueCommand_ghFill (s : State) (c : Command) :
    (s.queueCommand c).ghFill = s.ghFill := rfl
@[simp] theorem State.queueCommand_aadBits (s : State) (c : Command) :
    (s.queueCommand c).aadBits = s.aadBits := rfl
@[simp] theorem State.queueCommand_ctBits (s : State) (c : Command) :
    (s.queueCommand c).ctBits = s.ctBits := rfl
@[simp] theorem State.queueCommand_chan (s : State) (c : Command) :
    (s.queueCommand c).chan = s.chan := rfl
@[simp] theorem State.queueCommand_resp (s : State) (c : Command) :
    (s.queueCommand c).resp = s.resp := rfl
@[simp] theorem State.queueCommand_pending (s : State) (c : Command) :
    (s.queueCommand c).pending = .command c :: s.pending := rfl
@[simp] theorem State.queueCommand_maxOperandBytes (s : State) (c : Command) :
    (s.queueCommand c).maxOperandBytes = s.maxOperandBytes := rfl

/-! ### `gstep` -/

@[simp] theorem gstep_ctxState (b : Block) (s : State) :
    (gstep b s).ctxState = s.ctxState := rfl
@[simp] theorem gstep_kh (b : Block) (s : State) :
    (gstep b s).kh = s.kh := rfl
@[simp] theorem gstep_h (b : Block) (s : State) :
    (gstep b s).h = s.h := rfl
@[simp] theorem gstep_dir (b : Block) (s : State) :
    (gstep b s).dir = s.dir := rfl
@[simp] theorem gstep_j0 (b : Block) (s : State) :
    (gstep b s).j0 = s.j0 := rfl
@[simp] theorem gstep_ctr (b : Block) (s : State) :
    (gstep b s).ctr = s.ctr := rfl
@[simp] theorem gstep_ksBuf (b : Block) (s : State) :
    (gstep b s).ksBuf = s.ksBuf := rfl
@[simp] theorem gstep_ksPos (b : Block) (s : State) :
    (gstep b s).ksPos = s.ksPos := rfl
@[simp] theorem gstep_y (b : Block) (s : State) :
    (gstep b s).y = ghashStep s.h s.y b := rfl
@[simp] theorem gstep_ghBuf (b : Block) (s : State) :
    (gstep b s).ghBuf = s.ghBuf := rfl
@[simp] theorem gstep_ghFill (b : Block) (s : State) :
    (gstep b s).ghFill = s.ghFill := rfl
@[simp] theorem gstep_aadBits (b : Block) (s : State) :
    (gstep b s).aadBits = s.aadBits := rfl
@[simp] theorem gstep_ctBits (b : Block) (s : State) :
    (gstep b s).ctBits = s.ctBits := rfl
@[simp] theorem gstep_chan (b : Block) (s : State) :
    (gstep b s).chan = s.chan := rfl
@[simp] theorem gstep_resp (b : Block) (s : State) :
    (gstep b s).resp = s.resp := rfl
@[simp] theorem gstep_pending (b : Block) (s : State) :
    (gstep b s).pending = s.pending := rfl
@[simp] theorem gstep_maxOperandBytes (b : Block) (s : State) :
    (gstep b s).maxOperandBytes = s.maxOperandBytes := rfl

/-! ### `countCt` -/

@[simp] theorem countCt_ctxState (c : Bytes) (s : State) :
    (countCt c s).ctxState = s.ctxState := rfl
@[simp] theorem countCt_kh (c : Bytes) (s : State) :
    (countCt c s).kh = s.kh := rfl
@[simp] theorem countCt_h (c : Bytes) (s : State) :
    (countCt c s).h = s.h := rfl
@[simp] theorem countCt_dir (c : Bytes) (s : State) :
    (countCt c s).dir = s.dir := rfl
@[simp] theorem countCt_j0 (c : Bytes) (s : State) :
    (countCt c s).j0 = s.j0 := rfl
@[simp] theorem countCt_ctr (c : Bytes) (s : State) :
    (countCt c s).ctr = s.ctr := rfl
@[simp] theorem countCt_ksBuf (c : Bytes) (s : State) :
    (countCt c s).ksBuf = s.ksBuf := rfl
@[simp] theorem countCt_ksPos (c : Bytes) (s : State) :
    (countCt c s).ksPos = s.ksPos := rfl
@[simp] theorem countCt_y (c : Bytes) (s : State) :
    (countCt c s).y = s.y := rfl
@[simp] theorem countCt_ghBuf (c : Bytes) (s : State) :
    (countCt c s).ghBuf = s.ghBuf := rfl
@[simp] theorem countCt_ghFill (c : Bytes) (s : State) :
    (countCt c s).ghFill = s.ghFill := rfl
@[simp] theorem countCt_aadBits (c : Bytes) (s : State) :
    (countCt c s).aadBits = s.aadBits := rfl
@[simp] theorem countCt_ctBits (c : Bytes) (s : State) :
    (countCt c s).ctBits = s.ctBits + bitlen c := rfl
@[simp] theorem countCt_chan (c : Bytes) (s : State) :
    (countCt c s).chan = s.chan := rfl
@[simp] theorem countCt_resp (c : Bytes) (s : State) :
    (countCt c s).resp = s.resp := rfl
@[simp] theorem countCt_pending (c : Bytes) (s : State) :
    (countCt c s).pending = s.pending := rfl
@[simp] theorem countCt_maxOperandBytes (c : Bytes) (s : State) :
    (countCt c s).maxOperandBytes = s.maxOperandBytes := rfl

/-! ### `endOperation` -/

@[simp] theorem endOperation_ctxState (s : State) :
    (endOperation s).ctxState = .finalized := rfl
@[simp] theorem endOperation_kh (s : State) :
    (endOperation s).kh = s.kh := rfl
@[simp] theorem endOperation_h (s : State) :
    (endOperation s).h = s.h := rfl
@[simp] theorem endOperation_dir (s : State) :
    (endOperation s).dir = .encrypt := rfl
@[simp] theorem endOperation_j0 (s : State) :
    (endOperation s).j0 = 0#128 := rfl
@[simp] theorem endOperation_ctr (s : State) :
    (endOperation s).ctr = 0#128 := rfl
@[simp] theorem endOperation_ksBuf (s : State) :
    (endOperation s).ksBuf = 0#128 := rfl
@[simp] theorem endOperation_ksPos (s : State) :
    (endOperation s).ksPos = 16 := rfl
@[simp] theorem endOperation_y (s : State) :
    (endOperation s).y = 0#128 := rfl
@[simp] theorem endOperation_ghBuf (s : State) :
    (endOperation s).ghBuf = zeroBuf := rfl
@[simp] theorem endOperation_ghFill (s : State) :
    (endOperation s).ghFill = 0 := rfl
@[simp] theorem endOperation_aadBits (s : State) :
    (endOperation s).aadBits = 0#64 := rfl
@[simp] theorem endOperation_ctBits (s : State) :
    (endOperation s).ctBits = 0#64 := rfl
@[simp] theorem endOperation_chan (s : State) :
    (endOperation s).chan = s.chan := rfl
@[simp] theorem endOperation_resp (s : State) :
    (endOperation s).resp = s.resp := rfl
@[simp] theorem endOperation_pending (s : State) :
    (endOperation s).pending = s.pending := rfl
@[simp] theorem endOperation_maxOperandBytes (s : State) :
    (endOperation s).maxOperandBytes = s.maxOperandBytes := rfl

end Sys2Proof.Machine
end

