-- ==== Sys2Proof/Laws/Ghash.lean ====
section
/-! SUPPORT. What the GHASH operations do, said once. -/

namespace Sys2Proof.Machine

/-! ### Hashing a list of blocks -/

@[simp] theorem ghashFrom_nil (h t : Block) : ghashFrom h t [] = t := rfl

@[simp] theorem ghashFrom_cons (h t b : Block) (bs : List Block) :
    ghashFrom h t (b :: bs) = ghashFrom h (ghashStep h t b) bs := rfl

theorem ghashFrom_append (h t : Block) (as bs : List Block) :
    ghashFrom h t (as ++ bs) = ghashFrom h (ghashFrom h t as) bs := by
  simp [ghashFrom, List.foldl_append]

/-- Folding GSTEP over a list of blocks writes Y and nothing else. -/
theorem foldl_gstep (bs : List Block) (s : State) :
    bs.foldl (fun t b => gstep b t) s = { s with y := ghashFrom s.h s.y bs } := by
  induction bs generalizing s with
  | nil => rfl
  | cons b bs ih => rw [List.foldl_cons, ih]; rfl

/-- ABSORB_AAD writes Y and AAD_BITS and nothing else (41_ghash.md R122). -/
theorem absorbAad_eq (a : Bytes) (s : State) :
    absorbAad a s = { s with y := ghashFrom s.h s.y (blocks a), aadBits := bitlen a } := by
  simp only [absorbAad, foldl_gstep]

/-! ### Absorbing one ciphertext byte -/

/-- ABSORB_CT_BYTE where the buffer keeps room (R123). -/
theorem absorbCtByte_of_room (c : Byte) (s : State) (room : s.ghFill.val + 1 < 16) :
    absorbCtByte c s = { s with
      ghBuf := s.ghBuf.set s.ghFill.val c s.ghFill.isLt
      ghFill := ⟨s.ghFill.val + 1, room⟩ } := by
  simp only [absorbCtByte, dif_pos room]

/-- ABSORB_CT_BYTE of the sixteenth byte (R123). -/
theorem absorbCtByte_of_full (c : Byte) (s : State) (full : ¬ s.ghFill.val + 1 < 16) :
    absorbCtByte c s = { s with
      y := ghashStep s.h s.y (blk (s.ghBuf.set s.ghFill.val c s.ghFill.isLt).toList)
      ghBuf := zeroBuf
      ghFill := 0 } := by
  simp only [absorbCtByte, dif_neg full]; rfl

/-- ABSORB_CT_BYTE writes Y, GH_BUF and GH_FILL and nothing else. -/
theorem absorbCtByte_frame (c : Byte) (s : State) :
    absorbCtByte c s = { s with
      y := (absorbCtByte c s).y
      ghBuf := (absorbCtByte c s).ghBuf
      ghFill := (absorbCtByte c s).ghFill } := by
  by_cases room : s.ghFill.val + 1 < 16
  · rw [absorbCtByte_of_room c s room]
  · rw [absorbCtByte_of_full c s room]

@[simp] theorem absorbCtByte_ctxState (c : Byte) (s : State) :
    (absorbCtByte c s).ctxState = s.ctxState := by rw [absorbCtByte_frame]
@[simp] theorem absorbCtByte_kh (c : Byte) (s : State) : (absorbCtByte c s).kh = s.kh := by
  rw [absorbCtByte_frame]
@[simp] theorem absorbCtByte_h (c : Byte) (s : State) : (absorbCtByte c s).h = s.h := by
  rw [absorbCtByte_frame]
@[simp] theorem absorbCtByte_dir (c : Byte) (s : State) : (absorbCtByte c s).dir = s.dir := by
  rw [absorbCtByte_frame]
@[simp] theorem absorbCtByte_j0 (c : Byte) (s : State) : (absorbCtByte c s).j0 = s.j0 := by
  rw [absorbCtByte_frame]
@[simp] theorem absorbCtByte_ctr (c : Byte) (s : State) : (absorbCtByte c s).ctr = s.ctr := by
  rw [absorbCtByte_frame]
@[simp] theorem absorbCtByte_ksBuf (c : Byte) (s : State) :
    (absorbCtByte c s).ksBuf = s.ksBuf := by rw [absorbCtByte_frame]
@[simp] theorem absorbCtByte_ksPos (c : Byte) (s : State) :
    (absorbCtByte c s).ksPos = s.ksPos := by rw [absorbCtByte_frame]
@[simp] theorem absorbCtByte_aadBits (c : Byte) (s : State) :
    (absorbCtByte c s).aadBits = s.aadBits := by rw [absorbCtByte_frame]
@[simp] theorem absorbCtByte_ctBits (c : Byte) (s : State) :
    (absorbCtByte c s).ctBits = s.ctBits := by rw [absorbCtByte_frame]
@[simp] theorem absorbCtByte_chan (c : Byte) (s : State) : (absorbCtByte c s).chan = s.chan := by
  rw [absorbCtByte_frame]
@[simp] theorem absorbCtByte_resp (c : Byte) (s : State) : (absorbCtByte c s).resp = s.resp := by
  rw [absorbCtByte_frame]
@[simp] theorem absorbCtByte_pending (c : Byte) (s : State) :
    (absorbCtByte c s).pending = s.pending := by rw [absorbCtByte_frame]
@[simp] theorem absorbCtByte_maxOperandBytes (c : Byte) (s : State) :
    (absorbCtByte c s).maxOperandBytes = s.maxOperandBytes := by rw [absorbCtByte_frame]

/-- ABSORB_CT_BYTE leaves the list of the buffer with the byte at GH_FILL where there is room
(R123). -/
theorem absorbCtByte_ghBuf_of_room (c : Byte) (s : State) (room : s.ghFill.val + 1 < 16) :
    (absorbCtByte c s).ghBuf.toList = s.ghBuf.toList.set s.ghFill.val c := by
  rw [absorbCtByte_of_room c s room]; exact Vector.toList_set (h := s.ghFill.isLt)

/-- ABSORB_CT_BYTE of the sixteenth byte leaves sixteen 0x00 bytes (R123). -/
theorem absorbCtByte_ghBuf_of_full (c : Byte) (s : State) (full : ¬ s.ghFill.val + 1 < 16) :
    (absorbCtByte c s).ghBuf = zeroBuf := by
  rw [absorbCtByte_of_full c s full]

/-! ### Absorbing a chunk, and finalizing -/

@[simp] theorem absorbCtBytes_nil (s : State) : absorbCtBytes [] s = s := rfl

@[simp] theorem absorbCtBytes_cons (c : Byte) (cs : Bytes) (s : State) :
    absorbCtBytes (c :: cs) s = absorbCtBytes cs (absorbCtByte c s) := rfl

theorem absorbCtBytes_append (a b : Bytes) (s : State) :
    absorbCtBytes (a ++ b) s = absorbCtBytes b (absorbCtBytes a s) := by
  simp [absorbCtBytes, List.foldl_append]

/-- Absorbing a byte keeps the unused bytes of GH_BUF at 0x00 (R123). -/
theorem absorbCtByte_tailZero (c : Byte) (s : State) (tail : TailZero s) :
    TailZero (absorbCtByte c s) := by
  by_cases room : s.ghFill.val + 1 < 16
  · have next : (absorbCtByte c s).ghFill.val = s.ghFill.val + 1 := by
      rw [absorbCtByte_of_room c s room]
    unfold TailZero at tail ⊢
    rw [next, absorbCtByte_ghBuf_of_room c s room, List.drop_set_of_lt (Nat.lt_add_one _),
      ← List.drop_drop, tail, List.drop_replicate, Nat.sub_sub]
  · rw [absorbCtByte_of_full c s room]; rfl

/-- Absorbing a chunk keeps the unused bytes of GH_BUF at 0x00 (R123). -/
theorem absorbCtBytes_tailZero (cs : Bytes) (s : State) (tail : TailZero s) :
    TailZero (absorbCtBytes cs s) := by
  induction cs generalizing s with
  | nil => exact tail
  | cons c cs ih => exact ih _ (absorbCtByte_tailZero c s tail)

/-- FINALIZE with an empty buffer hashes the length block alone (R125). -/
theorem finalize_of_empty (s : State) (empty : s.ghFill = 0) :
    finalize s = { s with y := ghashStep s.h s.y (lengthBlock s.aadBits s.ctBits) } := by
  simp only [finalize, flushPartial, if_pos empty]; rfl

/-- FINALIZE with a partial block pads it, hashes it, and then the length block (R125). -/
theorem finalize_of_partial (s : State) (part : s.ghFill ≠ 0) :
    finalize s = { s with
      y := ghashStep s.h
        (ghashStep s.h s.y (blk (pad16 (s.ghBuf.toList.take s.ghFill.val))))
        (lengthBlock s.aadBits s.ctBits)
      ghBuf := zeroBuf
      ghFill := 0 } := by
  simp only [finalize, flushPartial, if_neg part]; rfl

/-- FINALIZE writes Y, GH_BUF and GH_FILL and nothing else. -/
theorem finalize_frame (s : State) :
    finalize s = { s with
      y := (finalize s).y, ghBuf := (finalize s).ghBuf, ghFill := (finalize s).ghFill } := by
  by_cases empty : s.ghFill = 0
  · rw [finalize_of_empty s empty]
  · rw [finalize_of_partial s empty]

@[simp] theorem finalize_dir (s : State) : (finalize s).dir = s.dir := by rw [finalize_frame]
@[simp] theorem finalize_j0 (s : State) : (finalize s).j0 = s.j0 := by rw [finalize_frame]
@[simp] theorem finalize_kh (s : State) : (finalize s).kh = s.kh := by rw [finalize_frame]
@[simp] theorem finalize_h (s : State) : (finalize s).h = s.h := by rw [finalize_frame]

/-- What FINISH leaves does not depend on what FINALIZE wrote (43_context_commands.md R176). -/
theorem endOperation_finalize (s : State) : endOperation (finalize s) = endOperation s := by
  rw [finalize_frame]; rfl

end Sys2Proof.Machine
end

