-- ==== Sys2Proof/Laws/Keystream.lean ====
section
/-! SUPPORT. What the keystream generator and the byte loop of UPDATE do, said once. -/

namespace Sys2Proof.Machine

/-! ### The keystream -/

/-- KS_BYTE at the end of a block takes the next one (42_ctr_keystream.md R144). -/
theorem ksByte_of_spent (enc : Block → Block) (s : State) (spent : s.ksPos = 16) :
    ksByte enc s =
      ({ s with ksBuf := enc s.ctr, ctr := inc32 s.ctr, ksPos := 1 }, blockByte (enc s.ctr) 0) := by
  simp only [ksByte, refillKeystream, if_pos spent]; rfl

/-- KS_BYTE inside a block takes its next byte (R144). -/
theorem ksByte_of_left (enc : Block → Block) (s : State) (left : s.ksPos ≠ 16) :
    ksByte enc s = ({ s with ksPos := s.ksPos + 1 }, blockByte s.ksBuf s.ksPos.val) := by
  simp only [ksByte, refillKeystream, if_neg left]

/-- XOR_INTO moves the state as KS_BYTE does (R146). -/
theorem xorInto_eq (enc : Block → Block) (d : Byte) (s : State) :
    xorInto enc d s = ((ksByte enc s).1, d ^^^ (ksByte enc s).2) := rfl

/-- The fields that neither the keystream generator nor the accumulator of ciphertext writes. -/
structure StreamFrame (s t : State) : Prop where
  ctxState : t.ctxState = s.ctxState
  kh : t.kh = s.kh
  h : t.h = s.h
  dir : t.dir = s.dir
  j0 : t.j0 = s.j0
  aadBits : t.aadBits = s.aadBits
  ctBits : t.ctBits = s.ctBits
  chan : t.chan = s.chan
  resp : t.resp = s.resp
  pending : t.pending = s.pending
  maxOperandBytes : t.maxOperandBytes = s.maxOperandBytes

theorem streamFrame_refl (s : State) : StreamFrame s s := by constructor <;> rfl

theorem streamFrame_trans {s t u : State} (st : StreamFrame s t) (tu : StreamFrame t u) :
    StreamFrame s u := by
  constructor
  · exact tu.ctxState.trans st.ctxState
  · exact tu.kh.trans st.kh
  · exact tu.h.trans st.h
  · exact tu.dir.trans st.dir
  · exact tu.j0.trans st.j0
  · exact tu.aadBits.trans st.aadBits
  · exact tu.ctBits.trans st.ctBits
  · exact tu.chan.trans st.chan
  · exact tu.resp.trans st.resp
  · exact tu.pending.trans st.pending
  · exact tu.maxOperandBytes.trans st.maxOperandBytes

/-- ABSORB_CT_BYTE keeps the frame (41_ghash.md R123). -/
theorem absorbCtByte_streamFrame (c : Byte) (s : State) : StreamFrame s (absorbCtByte c s) := by
  constructor <;> simp

/-- KS_BYTE keeps the frame (R144). -/
theorem ksByte_streamFrame (enc : Block → Block) (s : State) :
    StreamFrame s (ksByte enc s).1 := by
  by_cases spent : s.ksPos = 16
  · rw [ksByte_of_spent enc s spent]; constructor <;> rfl
  · rw [ksByte_of_left enc s spent]; constructor <;> rfl

/-- KS_BYTE leaves the accumulator alone (R144). -/
theorem ksByte_accumulator (enc : Block → Block) (s : State) :
    (ksByte enc s).1.y = s.y ∧ (ksByte enc s).1.ghBuf = s.ghBuf ∧
      (ksByte enc s).1.ghFill = s.ghFill := by
  by_cases spent : s.ksPos = 16
  · rw [ksByte_of_spent enc s spent]; exact ⟨rfl, rfl, rfl⟩
  · rw [ksByte_of_left enc s spent]; exact ⟨rfl, rfl, rfl⟩

/-! ### The byte loop of UPDATE -/

/-- One byte in the Encrypt direction (43_context_commands.md R170). -/
theorem updateByte_encrypt (enc : Block → Block) (d : Byte) (s : State) (hd : s.dir = .encrypt) :
    updateByte enc d s =
      (absorbCtByte (d ^^^ (ksByte enc s).2) (ksByte enc s).1, d ^^^ (ksByte enc s).2) := by
  simp only [updateByte, hd, xorInto_eq]

/-- One byte in the Decrypt direction (R170). -/
theorem updateByte_decrypt (enc : Block → Block) (d : Byte) (s : State) (hd : s.dir = .decrypt) :
    updateByte enc d s =
      ((ksByte enc (absorbCtByte d s)).1, d ^^^ (ksByte enc (absorbCtByte d s)).2) := by
  simp only [updateByte, hd, xorInto_eq]

@[simp] theorem updateBytes_nil (enc : Block → Block) (s : State) :
    updateBytes enc [] s = (s, []) := rfl

@[simp] theorem updateBytes_cons (enc : Block → Block) (d : Byte) (ds : Bytes) (s : State) :
    updateBytes enc (d :: ds) s =
      ((updateBytes enc ds (updateByte enc d s).1).1,
        (updateByte enc d s).2 :: (updateBytes enc ds (updateByte enc d s).1).2) := rfl

/-- The byte loop over a chunk in two parts. -/
theorem updateBytes_append (enc : Block → Block) (a b : Bytes) (s : State) :
    updateBytes enc (a ++ b) s =
      ((updateBytes enc b (updateBytes enc a s).1).1,
        (updateBytes enc a s).2 ++ (updateBytes enc b (updateBytes enc a s).1).2) := by
  induction a generalizing s with
  | nil => rfl
  | cons d ds ih => simp [ih]

/-- A chunk comes out as long as it went in (R170). -/
@[simp] theorem updateBytes_length (enc : Block → Block) (ds : Bytes) (s : State) :
    (updateBytes enc ds s).2.length = ds.length := by
  induction ds generalizing s with
  | nil => rfl
  | cons d ds ih => simp [ih]

/-- One byte of UPDATE keeps the frame (R170). -/
theorem updateByte_streamFrame (enc : Block → Block) (d : Byte) (s : State) :
    StreamFrame s (updateByte enc d s).1 := by
  cases hd : s.dir with
  | encrypt =>
    rw [updateByte_encrypt enc d s hd]
    exact streamFrame_trans (ksByte_streamFrame enc s) (absorbCtByte_streamFrame _ _)
  | decrypt =>
    rw [updateByte_decrypt enc d s hd]
    exact streamFrame_trans (absorbCtByte_streamFrame d s) (ksByte_streamFrame enc _)

/-- The byte loop of UPDATE keeps the frame: it writes CTR, KS_BUF, KS_POS, Y, GH_BUF and GH_FILL
and nothing else (R170). -/
theorem updateBytes_streamFrame (enc : Block → Block) (ds : Bytes) (s : State) :
    StreamFrame s (updateBytes enc ds s).1 := by
  induction ds generalizing s with
  | nil => exact streamFrame_refl s
  | cons d ds ih =>
    rw [updateBytes_cons]
    exact streamFrame_trans (updateByte_streamFrame enc d s) (ih _)

end Sys2Proof.Machine
end

