-- ==== Sys2Proof/Laws/Commands.lean ====
section
/-! SUPPORT. What each command and each step can do, said once: inversion lemmas, which later
proofs cite instead of unfolding a meaning. -/

namespace Sys2Proof.Machine

/-! ### Operands -/

/-- With no bound every operand fits (20_memory.md R51). -/
@[simp] theorem fits_of_unbounded (s : State) (unbounded : s.maxOperandBytes = none) (b : Bytes) :
    s.fits b = true := by
  cases b <;> simp [State.fits, unbounded]

/-- With no bound every instruction's operands fit. -/
theorem operandsFit_of_unbounded (s : State) (unbounded : s.maxOperandBytes = none) (i : Instr) :
    s.operandsFit i = true := by
  simp [State.operandsFit, fits_of_unbounded s unbounded]

/-- The legal key lengths (43_context_commands.md R161). -/
theorem keyLenOk_iff (n : Nat) : keyLenOk n = true ↔ n = 16 ∨ n = 24 ∨ n = 32 := by
  simp [keyLenOk, Config.keyBytes]

/-- The legal tag lengths (44_tag.md R193). -/
theorem tagLenOk_iff (n : Nat) : tagLenOk n = true ↔ 4 ≤ n ∧ n ≤ 16 := by
  exact decide_eq_true_iff

/-! ### The effects as one update each -/

/-- Every register a START writes (43_context_commands.md R165). -/
theorem startEffect_eq (d : Direction) (s : State) :
    startEffect d s = { s with
      ctxState := .active, dir := d
      j0 := deriveJ0 s.h s.chan.iv, ctr := inc32 (deriveJ0 s.h s.chan.iv)
      ksBuf := 0#128, ksPos := 16, y := ghash s.h (blocks s.chan.aad)
      ghBuf := zeroBuf, ghFill := 0, aadBits := bitlen s.chan.aad, ctBits := 0#64
      resp := some ⟨.ok, [], []⟩ } := by
  simp only [startEffect, absorbAad_eq]; rfl

/-- UPDATE keeps what its byte loop keeps, counts the bits and answers (R170). -/
theorem updateEffect_eq (enc : Block → Block) (s : State) :
    updateEffect enc s = { (updateBytes enc s.chan.din s).1 with
      ctBits := s.ctBits + bitlen s.chan.din
      resp := some ⟨.ok, (updateBytes enc s.chan.din s).2, []⟩ } := by
  show { (updateBytes enc s.chan.din s).1 with
      ctBits := (updateBytes enc s.chan.din s).1.ctBits + bitlen s.chan.din
      resp := some ⟨.ok, (updateBytes enc s.chan.din s).2, []⟩ } = _
  rw [(updateBytes_streamFrame enc s.chan.din s).ctBits]

/-- FINISH ends the operation and answers (R176). -/
theorem finishEffect_eq (enc : Block → Block) (n : Nat) (s : State) :
    finishEffect enc n s = (endOperation s).respond
      (if s.dir = .decrypt ∧ tagEq (operationTag enc n s) s.chan.tagin = false
        then .authenticationFailure else .ok)
      [] (if s.dir = .encrypt then operationTag enc n s else []) := by
  simp only [finishEffect, endOperation_finalize]
  cases hd : s.dir <;> simp
  split <;> simp_all

/-! ### Inversion: if a command answers a next state, then one of these -/

/-- BIND_KEY rejects by state, rejects by key length, or has its effect (R161). -/
theorem execBindKey_cases {s t : State} (h : execBindKey s = .next t) :
    (s.ctxState = .active ∧ t = s.fail .invalidState) ∨
    (s.ctxState ≠ .active ∧ keyLenOk s.chan.key.length = false ∧ t = s.fail .invalidKeyLength) ∨
    (s.ctxState ≠ .active ∧ keyLenOk s.chan.key.length = true ∧
      t = bindKeyEffect Config.bcBind Config.bcEnc s) := by
  simp only [execBindKey, bindKeyWith] at h
  split at h
  · cases h
  · split at h
    · cases h; exact .inl ⟨‹_›, rfl⟩
    · split at h
      · cases h; exact .inr (.inl ⟨‹_›, by simpa using ‹(!_) = true›, rfl⟩)
      · cases h; exact .inr (.inr ⟨‹_›, by simpa using ‹¬ (!_) = true›, rfl⟩)

/-- START.ENC rejects by state or has its effect (R166). -/
theorem execStartEnc_cases {s t : State} (h : execStartEnc s = .next t) :
    (s.ctxState ≠ .keyBound ∧ t = s.fail .invalidState) ∨
    (s.ctxState = .keyBound ∧ t = startEffect .encrypt s) := by
  simp only [execStartEnc] at h
  split at h
  · cases h
  · split at h
    · cases h; exact .inl ⟨‹_›, rfl⟩
    · cases h; exact .inr ⟨by simpa using ‹¬ _ ≠ _›, rfl⟩

/-- START.DEC rejects by state or has its effect (R167). -/
theorem execStartDec_cases {s t : State} (h : execStartDec s = .next t) :
    (s.ctxState ≠ .keyBound ∧ t = s.fail .invalidState) ∨
    (s.ctxState = .keyBound ∧ t = startEffect .decrypt s) := by
  simp only [execStartDec] at h
  split at h
  · cases h
  · split at h
    · cases h; exact .inl ⟨‹_›, rfl⟩
    · cases h; exact .inr ⟨by simpa using ‹¬ _ ≠ _›, rfl⟩

/-- UPDATE rejects by state or has its effect under the bound key (R170). -/
theorem execUpdate_cases {s t : State} (h : execUpdate s = .next t) :
    (s.ctxState ≠ .active ∧ t = s.fail .invalidState) ∨
    (s.ctxState = .active ∧ ∃ handle, s.kh = some handle ∧
      t = updateEffect (Config.bcEnc handle) s) := by
  simp only [execUpdate, updateWith] at h
  split at h
  · cases h
  · split at h
    · cases h; exact .inl ⟨‹_›, rfl⟩
    · split at h
      · cases h
      · cases h; exact .inr ⟨by simpa using ‹¬ _ ≠ _›, _, ‹_›, rfl⟩

/-- FINISH rejects by state, by one of its two tag-length checks, or has its effect under the bound
key (R176). -/
theorem execFinish_cases {s t : State} {n : Nat} (h : execFinish n s = .next t) :
    (s.ctxState ≠ .active ∧ t = s.fail .invalidState) ∨
    (s.ctxState = .active ∧ (tagLenOk n = false ∨ (s.dir = .decrypt ∧ s.chan.tagin.length ≠ n)) ∧
      t = s.fail .invalidTagLength) ∨
    (s.ctxState = .active ∧ tagLenOk n = true ∧ (s.dir = .decrypt → s.chan.tagin.length = n) ∧
      ∃ handle, s.kh = some handle ∧ t = finishEffect (Config.bcEnc handle) n s) := by
  simp only [execFinish, finishWith] at h
  split at h
  · cases h
  · split at h
    · cases h; exact .inl ⟨‹_›, rfl⟩
    · have act : s.ctxState = .active := by simpa using ‹¬ _ ≠ _›
      split at h
      · cases h; exact .inr (.inl ⟨act, .inl (by simpa using ‹(!_) = true›), rfl⟩)
      · have len : tagLenOk n = true := by simpa using ‹¬ (!_) = true›
        split at h
        · cases h; exact .inr (.inl ⟨act, .inr ‹_›, rfl⟩)
        · have same : s.dir = .decrypt → s.chan.tagin.length = n := by
            intro hd
            by_contra hne
            exact absurd ⟨hd, hne⟩ ‹¬ (_ ∧ _)›
          split at h
          · cases h
          · cases h; exact .inr (.inr ⟨act, len, same, _, ‹_›, rfl⟩)

/-- A step waits, takes a reset, rejects an ILLEGAL word, or runs one instruction on the state with
the command at the port. -/
theorem step_cases {s t : State} (h : step s = .next t) :
    (s.pending = [] ∧ t = s) ∨
    (∃ cut rest, s.pending = .hardwareReset cut :: rest ∧ t = s.takeReset rest) ∨
    (∃ c rest why, s.pending = .command c :: rest ∧ decode c.word = .error why ∧
      t = (s.accept c rest).fail .illegalCommand) ∨
    (∃ c rest i, s.pending = .command c :: rest ∧ decode c.word = .ok i ∧
      exec i (s.accept c rest) = .next t) := by
  simp only [step] at h
  split at h
  · cases h; exact .inl ⟨‹_›, rfl⟩
  · rename_i c rest pend
    simp only [runWord] at h
    split at h
    · exact .inr (.inr (.inr ⟨c, rest, _, pend, ‹_›, h⟩))
    · cases h; exact .inr (.inr (.inl ⟨c, rest, _, pend, ‹_›, rfl⟩))
  · rename_i cut rest pend
    cases h; exact .inr (.inl ⟨cut, rest, pend, rfl⟩)
  · cases h

end Sys2Proof.Machine
end

