-- ==== Sys2Proof/Laws/PerInstr.lean ====
section
/-! SUPPORT. What holds of every instruction as syntax, one lemma per constructor. -/

namespace Sys2Proof.Laws

/-- The word of a well-formed instruction has both reserved fields zero (30_encoding.md R71), DIR
only in START.DEC (R73), TAGLEN only in FINISH (R74), and an OPC of the map (R75). -/
def EncodedFields.Statement (i : Instr) : Prop :=
  i.wellFormed = true →
    CmdWord.rsv0 (encode i) = 0 ∧ CmdWord.rsv1 (encode i) = 0 ∧
    (CmdWord.dir (encode i) = 1 ↔ i = .startDec) ∧
    (CmdWord.tagLen (encode i) = match i with | .finish n => n | _ => 0) ∧
    (CmdWord.opc (encode i) = match i with
      | .bindKey => 1
      | .startEnc => 2
      | .startDec => 2
      | .update => 3
      | .finish _ => 4)

theorem EncodedFields.bindKey : EncodedFields.Statement .bindKey := by
  intro _; decide

theorem EncodedFields.startEnc : EncodedFields.Statement .startEnc := by
  intro _; decide

theorem EncodedFields.startDec : EncodedFields.Statement .startDec := by
  intro _; decide

theorem EncodedFields.update : EncodedFields.Statement .update := by
  intro _; decide

theorem EncodedFields.finish (tagLen : Nat) :
    EncodedFields.Statement (.finish tagLen) := by
  intro wf
  have bound : tagLen ≤ 31 := by simpa [Instr.wellFormed] using wf
  have all : ∀ n : Fin 32,
      CmdWord.rsv0 (encode (.finish n.val)) = 0 ∧ CmdWord.rsv1 (encode (.finish n.val)) = 0 ∧
      CmdWord.dir (encode (.finish n.val)) = 0 ∧
      CmdWord.tagLen (encode (.finish n.val)) = n.val ∧
      CmdWord.opc (encode (.finish n.val)) = 4 := by decide +kernel
  obtain ⟨r0, r1, d, tl, o⟩ := all ⟨tagLen, by omega⟩
  exact ⟨r0, r1, by simp only at d; rw [d]; simp, tl, o⟩

end Sys2Proof.Laws
end

