-- ==== Sys2Proof/Laws/Script.lean ====
section
/-! SUPPORT. What the host's conduct of a run does, said once. -/

namespace Sys2Proof.Machine

/-- Issuing a command whose word decodes runs its instruction on the state with its operands at the
port (70_reset_and_hazards.md R240). -/
theorem step_queueCommand_of_decode {c : Command} {i : Instr} (s : State)
    (h : decode c.word = .ok i) : step (s.queueCommand c) = exec i { s with chan := c.chan } := by
  show runWord c.word _ = _
  simp only [runWord, h]
  rfl

/-- A command that is answered gives its response and the state after it. -/
theorem transact_of_next {c : Command} {s t : State} {r : Response}
    (h : step (s.queueCommand c) = .next t) (hr : t.resp = some r) :
    transact c s = some (r, t) := by
  simp only [transact, h, hr]

@[simp] theorem runScript_nil (s : State) : runScript [] s = some ([], s) := rfl

/-- A command answered with OK is followed by the rest of the script (30_encoding.md R81). -/
theorem runScript_cons_of_ok {c : Command} {cs : List Command} {s t u : State} {r : Response}
    {rs : List Response} (h : transact c s = some (r, t)) (ok : r.status = .ok)
    (rest : runScript cs t = some (rs, u)) : runScript (c :: cs) s = some (r :: rs, u) := by
  simp only [runScript, h, if_pos ok, rest]

/-- A command answered otherwise ends the script (R81). -/
theorem runScript_cons_of_not_ok {c : Command} {cs : List Command} {s t : State} {r : Response}
    (h : transact c s = some (r, t)) (notOk : r.status ≠ .ok) :
    runScript (c :: cs) s = some ([r], t) := by
  simp only [runScript, h, if_neg notOk]

end Sys2Proof.Machine
end

