-- ==== Sys2Proof/Tests/Slice0.lean ====
section
/-! SUPPORT. Small tests. The expected values are those of spec/95_test_vectors.md (the vector's
name stands in each comment) or are written out from the encoding of 30_encoding.md R71. -/

namespace Sys2Proof.Tests

open Sys2Proof.Machine

/-- The len bytes of a number, most significant first: how the vectors write byte strings. -/
def hex (value len : Nat) : Bytes :=
  (List.range len).map fun k => BitVec.ofNat 8 (value >>> (8 * (len - 1 - k)))

/-- What an outcome shows of its next state, if there is one. -/
def after {α : Type} (o : Host.Outcome State Fault Refusal) (f : State → α) : Option α :=
  match o with
  | .next t => some (f t)
  | .fault _ => none
  | .refused _ => none

/-! ### Well-formedness and encoding -/

/-- The one check: a tag length that five bits cannot carry. -/
theorem test_wellFormed_refuses_32 : (Instr.finish 32).wellFormed = false := by decide

theorem test_wellFormed_accepts_31 : (Instr.finish 31).wellFormed = true := by decide

/-- RSV1 0…0, TAGLEN 00000, RSV0 000, DIR 0, OPC 0001. -/
theorem test_decode_bindKey : decode 0b00000000000000000000000000000001#32 = .ok .bindKey := by
  decide

/-- DIR 0, OPC 0010. -/
theorem test_decode_startEnc : decode 0b00000000000000000000000000000010#32 = .ok .startEnc := by
  decide

/-- DIR 1, OPC 0010. -/
theorem test_decode_startDec : decode 0b00000000000000000000000000010010#32 = .ok .startDec := by
  decide

/-- OPC 0011. -/
theorem test_decode_update : decode 0b00000000000000000000000000000011#32 = .ok .update := by
  decide

/-- TAGLEN 01100 in bits 12 to 8, OPC 0100. -/
theorem test_decode_finish : decode 0b00000000000000000000110000000100#32 = .ok (.finish 12) := by
  decide

/-- TAGLEN 10001 and 11111: any value decodes (R74). -/
theorem test_decode_finish_long :
    decode 0b00000000000000000001000100000100#32 = .ok (.finish 17) ∧
    decode 0b00000000000000000001111100000100#32 = .ok (.finish 31) := by decide

/-- S1 to S4, and one word for each field that must be zero. -/
theorem test_decode_illegal :
    decode 0x00000000#32 = .error .reservedOpcode ∧ decode 0x0000000F#32 = .error .reservedOpcode ∧
    decode 0x00000014#32 = .error .nonzeroDir ∧ decode 0x00000022#32 = .error .nonzeroRsv0 ∧
    decode 0x80000003#32 = .error .nonzeroRsv1 ∧ decode 0x00000103#32 = .error .nonzeroTagLen ∧
    decode 0x00000112#32 = .error .nonzeroTagLen ∧ decode 0x00002004#32 = .error .nonzeroRsv1 := by
  decide

theorem test_decodeTableWord :
    decodeTableWord 32 0x12 = some .startDec ∧ decodeTableWord 32 0x1004 = some (.finish 16) ∧
    decodeTableWord 32 0 = none := by decide

/-! ### The datapath functions -/

/-- M6. -/
theorem test_gfmul_M6 : gfmul 1#128 1#128 = 0xe6080000000000000000000000000003#128 := by
  decide +kernel

/-- M9. -/
theorem test_gfmul_M9 :
    gfmul 0xd0ba10280f461614b4f7f64650626a78#128 0x66e94bd4ef8a2c3b884cfa59ca342b2e#128 =
      0x8a70a3860a87bb9d977bba971e61da77#128 := by decide +kernel

/-- M11. -/
theorem test_gfmul_M11 :
    gfmul (BitVec.allOnes 128) (BitVec.allOnes 128) =
      0xf402aaaaaaaaaaaaaaaaaaaaaaaaaaaa#128 := by decide +kernel

/-- G5. -/
theorem test_ghash_G5 :
    ghash 0x66e94bd4ef8a2c3b884cfa59ca342b2e#128
      [0x0388dace60b6a392f328c2b971b2fe78#128, 0x80#128] =
      0xf38cbb1ad69223dcc3457ae5b6b0f885#128 := by decide +kernel

/-- G7: five AAD bytes, padded and hashed, forty bits counted. -/
theorem test_finalize_G7 :
    (finalize (absorbAad (hex 0x0102030405 5)
      { State.reset with h := 0x66e94bd4ef8a2c3b884cfa59ca342b2e#128 })).y =
      0x87094a67e18c3c77d741260aa9147a6c#128 := by decide +kernel

/-- C3: the high 96 bits stay. -/
theorem test_inc32_C3 :
    inc32 (BitVec.allOnes 128) = 0xffffffffffffffffffffffff00000000#128 := by decide +kernel

/-- J1: the direct path. -/
theorem test_deriveJ0_J1 :
    deriveJ0 0x66e94bd4ef8a2c3b884cfa59ca342b2e#128 (hex 0xcafebabefacedbaddecaf888 12) =
      0xcafebabefacedbaddecaf88800000001#128 := by decide +kernel

/-- J4, the source's own known answer SRC-1. -/
theorem test_deriveJ0_J4 :
    deriveJ0 0xd0ba10280f461614b4f7f64650626a78#128 (hex 0x5fccd8cb551cfc9c20998da4cb981d49 16) =
      0x70704b325135e4121a2bb99fbcd66604#128 := by decide +kernel

/-- J7: eleven bytes do not take the direct path. -/
theorem test_deriveJ0_J7 :
    deriveJ0 0x66e94bd4ef8a2c3b884cfa59ca342b2e#128 (hex 0 11) =
      0xe45c0044d02c417a0f2608743e305481#128 := by decide +kernel

/-- T5. -/
theorem test_trunc_T5 :
    trunc 0xab6e47d42cec13bdf53a67b21257bddf#128 5 = hex 0xab6e47d42c 5 := by decide +kernel

/-- TE1: a difference in the last bit of the last byte. -/
theorem test_tagEq_TE1 :
    tagEq (hex 0xab6e47d42cec13bdf53a67b21257bddf 16) (hex 0xab6e47d42cec13bdf53a67b21257bdde 16) =
      false := by decide +kernel

/-- TL1. -/
theorem test_tagLenOk_TL1 :
    (List.range 32).filter tagLenOk = [4, 5, 6, 7, 8, 9, 10, 11, 12, 13, 14, 15, 16] := by
  decide +kernel

/-! ### The commands, beside the test cipher TOY of 95_test_vectors.md section 0 -/

/-- K = 000102…0f. -/
def toyKey : Bytes := hex 0x000102030405060708090a0b0c0d0e0f 16

def toyBind (key : Bytes) : KeyHandle := ⟨(blk (key.take 16)).toNat⟩

def toyEnc (handle : KeyHandle) (v : Block) : Block := v ^^^ BitVec.ofNat 128 handle.token

/-- The state after BIND_KEY of K, with operands at the port. -/
def toyBound (chan : Channels) : State :=
  { State.reset with
    ctxState := .keyBound
    kh := some (toyBind toyKey)
    h := 0x000102030405060708090a0b0c0d0e0f#128
    chan := chan }

/-- The state of C6, with operands at the port. -/
def toyActive (d : Direction) (chan : Channels) : State :=
  { toyBound chan with
    ctxState := .active
    dir := d
    j0 := 0xcafebabefacedbaddecaf88800000001#128
    ctr := 0xcafebabefacedbaddecaf88800000002#128 }

/-- P3 step 3: K is bound and H = K. -/
theorem test_bindKey_P3 :
    after (bindKeyWith toyBind toyEnc
        { State.reset with chan := { Channels.empty with key := toyKey } })
      (fun t => (t.ctxState, t.h, t.resp)) =
    some (.keyBound, 0x000102030405060708090a0b0c0d0e0f#128, some ⟨.ok, [], []⟩) := by
  decide +kernel

/-- S6: the state is checked before the key's length. -/
theorem test_bindKey_S6 :
    after (bindKeyWith toyBind toyEnc
        (toyActive .encrypt { Channels.empty with key := hex 0 15 })) (fun t => t.resp) =
    some (some ⟨.invalidState, [], []⟩) := by decide +kernel

/-- P3 step 5: an 8-byte IV and 20 bytes of AAD. -/
theorem test_startEnc_P3 :
    after (exec .startEnc (toyBound { Channels.empty with
        iv := hex 0xcafebabefacedbad 8
        aad := hex 0xfeedfacedeadbeeffeedfacedeadbeefabaddad2 20 }))
      (fun t => (t.ctxState, t.j0, t.ctr, t.y, t.aadBits)) =
    some (.active, 0xda098afa44357c333bdb2b60a753226d#128, 0xda098afa44357c333bdb2b60a753226e#128,
      0x800d0f67a65a8161669182a3a92abac4#128, 160#64) := by decide +kernel

/-- P2 step 7: a START in Finalized. -/
theorem test_startEnc_P2_finalized :
    after (exec .startEnc { toyBound Channels.empty with ctxState := .finalized })
      (fun t => (t.ctxState, t.resp)) =
    some (.finalized, some ⟨.invalidState, [], []⟩) := by decide +kernel

/-- C10, its START. -/
theorem test_startDec_C10 :
    after (exec .startDec (toyBound { Channels.empty with
        iv := hex 0xcafebabefacedbaddecaf888 12 }))
      (fun t => (t.ctxState, t.dir, t.j0, t.ctr, t.ksPos)) =
    some (.active, .decrypt, 0xcafebabefacedbaddecaf88800000001#128,
      0xcafebabefacedbaddecaf88800000002#128, 16) := by decide +kernel

/-- C8: forty zero bytes, so the last block of keystream is half used. -/
theorem test_update_C8 :
    after (updateWith toyEnc (toyActive .encrypt { Channels.empty with din := hex 0 40 }))
      (fun t => (t.ctr, t.ksBuf, t.ksPos, t.ghFill, t.y, t.ctBits)) =
    some (0xcafebabefacedbaddecaf88800000005#128, 0xcaffb8bdfecbddaad6c3f2830c0d0e0b#128, 8, 8,
      0xc6e2b93d343b02e17f3ce7e78b216e92#128, 320#64) := by decide +kernel

/-- C10: Decrypt absorbs what came in and puts out the plaintext. -/
theorem test_update_C10 :
    after (updateWith toyEnc (toyActive .decrypt { Channels.empty with din := hex 0xcafe 2 }))
      (fun t => (t.resp, t.ghFill, t.ghBuf.toList.take 2, t.ctBits)) =
    some (some ⟨.ok, hex 0x0001 2, []⟩, 2, hex 0xcafe 2, 16#64) := by decide +kernel

/-- C9: the tag after C8. -/
theorem test_finish_C9 :
    after (finishWith toyEnc 16 { toyActive .encrypt Channels.empty with
        y := 0xc6e2b93d343b02e17f3ce7e78b216e92#128
        ghFill := 8
        ghBuf := ⟨(hex 0xcaffb8bdfecbddaa0000000000000000 16).toArray, by decide +kernel⟩
        ctBits := 320#64 })
      (fun t => (t.ctxState, t.j0, t.resp)) =
    some (.finalized, 0#128, some ⟨.ok, [], hex 0xf52b47be1bea04c3f728f5572144fe3d 16⟩) := by
  decide +kernel

/-- S8: a length FINISH rejects leaves the operation Active. -/
theorem test_finish_S8 :
    after (finishWith toyEnc 3 (toyActive .encrypt Channels.empty))
      (fun t => (t.ctxState, t.ctr, t.resp)) =
    some (.active, 0xcafebabefacedbaddecaf88800000002#128,
      some ⟨.invalidTagLength, [], []⟩) := by decide +kernel

/-! ### Hypotheses that can be met

One theorem per statement of Sys2Proof/Certificates/Slice0/Obligations.lean that has hypotheses: a
concrete state and operands that meet all of them together. The states are beside the block cipher
of the configuration, so where a value of it enters, it stands there as itself. -/

def demoKey : Bytes := List.replicate 16 0x00#8

def demoHandle : KeyHandle := Config.bcBind demoKey

/-- A key is bound and no operation runs. -/
def demoBound : State :=
  { State.reset with
    ctxState := .keyBound
    kh := some demoHandle
    h := Config.bcEnc demoHandle 0#128
    chan := { Channels.empty with key := demoKey } }

/-- An operation has ended. -/
def demoFinalized : State := { demoBound with ctxState := .finalized }

/-- An operation with nothing absorbed yet. -/
def demoActive (d : Direction) : State :=
  { demoBound with ctxState := .active, dir := d, j0 := 1#128, ctr := 2#128 }

/-- The word of a command, with operands, as the host's one next act. -/
def issuing (w : CmdWord) (chan : Channels) (s : State) : State :=
  { s with pending := [.command ⟨w, chan⟩] }

theorem demo_cleared (s : State) (h : s = State.reset ∨ s = demoBound ∨ s = demoFinalized) :
    OpCleared s := by
  rcases h with rfl | rfl | rfl <;> constructor <;> rfl

theorem demoActive_operationAt (enc : Block → Block) (d : Direction) :
    OperationAt enc [] [] (demoActive d) where
  fill := rfl
  buffered := rfl
  folded := rfl
  aadBits := rfl
  ctBits := rfl
  position := rfl
  counter := by show (2#128 : Block) = inc32Times 1 1#128; decide +kernel
  keystream := fun h => absurd h (by decide)

theorem demoBound_inv : Inv demoBound where
  keyBound := by simp [demoBound]
  keyFromBind := fun handle h => ⟨demoKey, by decide, by simpa [demoBound, demoHandle] using h.symm⟩
  subkey := fun handle h => by cases h; rfl
  cleared := fun _ => demo_cleared _ (.inr (.inl rfl))
  frozen := rfl
  operation := fun h => by cases h
  tail := rfl

theorem demoActive_inv (d : Direction) : Inv (demoActive d) where
  keyBound := by simp [demoActive, demoBound]
  keyFromBind := fun handle h =>
    ⟨demoKey, by decide, by simpa [demoActive, demoBound, demoHandle] using h.symm⟩
  subkey := fun handle h => by cases h; rfl
  cleared := fun h => absurd rfl h
  frozen := by show (2#128).extractLsb' 32 96 = (1#128).extractLsb' 32 96; decide
  operation := fun _ handle _ => ⟨[], [], demoActive_operationAt _ d⟩
  tail := rfl

/-- The host's next act is no register of the invariant. -/
theorem issuing_inv (w : CmdWord) (chan : Channels) (s : State) (h : Inv s) :
    Inv (issuing w chan s) where
  keyBound := h.keyBound
  keyFromBind := h.keyFromBind
  subkey := h.subkey
  cleared := fun ne =>
    let c := h.cleared ne
    ⟨c.dir, c.j0, c.ctr, c.ksBuf, c.ksPos, c.y, c.ghBuf, c.ghFill, c.aadBits, c.ctBits⟩
  frozen := h.frozen
  operation := fun act handle kh =>
    let ⟨aad, ct, o⟩ := h.operation act handle kh
    ⟨aad, ct, o.fill, o.buffered, o.folded, o.aadBits, o.ctBits, o.position, o.counter,
      o.keystream⟩
  tail := h.tail

/-- Four bytes with the first bit of the first flipped are told apart. -/
theorem tagEq_flipped (a b c d : Byte) : tagEq [a, b, c, d] [a ^^^ 1#8, b, c, d] = false := by
  have first : a ^^^ (a ^^^ 1#8) = 1#8 := by rw [← BitVec.xor_assoc, BitVec.xor_self]; rfl
  simp [tagEq, first]

/-- The operands of a FINISH whose supplied tag is not the operation's. -/
def wrongTag : Channels :=
  { Channels.empty with
    tagin := flipBit (operationTag (Config.bcEnc demoHandle) 4 (demoActive .decrypt)) 0 0 }

/-- The operands of a FINISH whose supplied tag is the operation's. -/
def rightTag : Channels :=
  { Channels.empty with
    tagin := operationTag (Config.bcEnc demoHandle) 4 (demoActive .decrypt) }

theorem wrongTag_differs :
    operationTag (Config.bcEnc demoHandle) 4 (demoActive .decrypt) ≠ wrongTag.tagin := by
  intro h
  have first := congrArg (fun l : Bytes => l.getD 0 0#8) h
  have one : ∀ a : Byte, a ≠ a ^^^ 1#8 := by decide
  exact one _ first

theorem wrongTag_rejected :
    tagEq (operationTag (Config.bcEnc demoHandle) 4 (demoActive .decrypt)) wrongTag.tagin =
      false := tagEq_flipped _ _ _ _

theorem zero_is_no_encoding (i : Instr) : (0x00000000#32 : CmdWord) ≠ encode i := by
  cases i with
  | finish n =>
    intro h
    have bit := congrArg (fun w : CmdWord => w.getLsbD 2) h
    simp [encode] at bit
  | bindKey => decide
  | startEnc => decide
  | startDec => decide
  | update => decide

theorem witness_HardwareResetFromAnyState :
    ∃ (s : State) (cut : Option Command) (rest : List Event),
      s.pending = .hardwareReset cut :: rest ∧ cut ≠ none ∧ s.ctxState = .active :=
  ⟨{ demoActive .encrypt with
      pending := [.hardwareReset (some ⟨3#32, Channels.empty⟩)] }, _, _, rfl, by simp, rfl⟩

theorem witness_WaitsWithNothingAtThePort : ∃ s : State, s.pending = [] := ⟨State.reset, rfl⟩

theorem witness_OverlappingCommandsRefused :
    ∃ (s : State) (first second : Command) (rest : List Event),
      s.pending = .overlapping first second :: rest :=
  ⟨{ demoBound with
      pending := [.overlapping ⟨2#32, Channels.empty⟩ ⟨3#32, Channels.empty⟩] }, _, _, _, rfl⟩

theorem witness_StepRunsDecodedInstruction :
    ∃ (s : State) (c : Command) (rest : List Event) (i : Instr),
      s.pending = .command c :: rest ∧ decode c.word = .ok i :=
  ⟨issuing 0x1004#32 Channels.empty State.reset, _, _, .finish 16, rfl, by decide⟩

theorem witness_IssuedTableWordRuns :
    ∃ (nbits w : Nat) (i : Instr), decodeTableWord nbits w = some i :=
  ⟨32, 0x1004, .finish 16, by decide⟩

theorem witness_OperandOverTheBoundRefused :
    ∃ (i : Instr) (s : State) (bound : Nat) (b : Bytes),
      s.maxOperandBytes = some bound ∧ b ∈ operandsOf i s ∧ bound < b.length :=
  ⟨.update, { demoActive .encrypt with
      maxOperandBytes := some 1, chan := { Channels.empty with din := [0#8, 0#8] } },
    1, [0#8, 0#8], rfl, by simp [operandsOf], by decide⟩

theorem witness_DecodeIsInverseOfEncode :
    ∃ (w : CmdWord) (i : Instr), decode w = .ok i ∧ i.wellFormed = true ∧ w = encode i :=
  ⟨0x1F04#32, .finish 31, by decide⟩

theorem witness_IllegalWordAnswered :
    ∃ (s : State) (c : Command) (rest : List Event),
      s.pending = .command c :: rest ∧ (∀ i : Instr, i.wellFormed = true → c.word ≠ encode i) :=
  ⟨issuing 0#32 Channels.empty State.reset, _, _, rfl, fun i _ => zero_is_no_encoding i⟩

theorem witness_AssembledLineDecodesBack :
    (∃ l c, assemble l = some c) ∧ (∃ l, assemble l = none) ∧
      assemble (.finish 31 []) ≠ none ∧ assemble (.finish 32 []) = none :=
  ⟨⟨.update [0#8], _, rfl⟩, ⟨.finish 32 [], by decide⟩, by decide, by decide⟩

theorem witness_BindKeyBindsAndComputesSubkey :
    ∃ s : State, s.operandsFit .bindKey = true ∧ s.ctxState ≠ .active ∧
      (s.chan.key.length = 16 ∨ s.chan.key.length = 24 ∨ s.chan.key.length = 32) :=
  ⟨demoFinalized, by decide, by decide, by decide⟩

/-- Its clauses on a rejected BIND_KEY: in Active, and with a key of 15, 17 or 33 bytes. -/
theorem witness_BindKeyBindsAndComputesSubkey_rejected :
    (demoActive .encrypt).operandsFit .bindKey = true ∧
    ∀ n ∈ [0, 15, 17, 33], ¬ ((hex 0 n).length = 16 ∨ (hex 0 n).length = 24 ∨
      (hex 0 n).length = 32) ∧
      ({ demoBound with chan := { Channels.empty with key := hex 0 n } }).operandsFit .bindKey =
        true := by decide

theorem witness_StartEncBeginsOperation_rejected :
    ∀ s ∈ [State.reset, demoFinalized, demoActive .encrypt],
      s.operandsFit .startEnc = true ∧ s.operandsFit .startDec = true ∧
        s.ctxState ≠ .keyBound := by
  simp only [List.mem_cons, List.not_mem_nil, or_false, forall_eq_or_imp, forall_eq]
  decide

theorem witness_StartEncBeginsOperation :
    ∃ s : State, s.operandsFit .startEnc = true ∧ s.ctxState = .keyBound :=
  ⟨demoBound, by decide, by decide⟩

theorem witness_StartDecBeginsOperation :
    ∃ s : State, s.operandsFit .startDec = true ∧ s.ctxState = .keyBound :=
  ⟨{ demoBound with chan := { Channels.empty with iv := [1#8], aad := [2#8] } },
    by decide, by decide⟩

theorem witness_UpdateCompletesWithItsFrame :
    ∃ (s : State) (handle : KeyHandle), s.operandsFit .update = true ∧ s.ctxState = .active ∧
      s.kh = some handle ∧ s.chan.din ≠ [] :=
  ⟨{ demoActive .decrypt with chan := { Channels.empty with din := [1#8] } }, demoHandle,
    by decide, rfl, rfl, by decide⟩

/-- Its clause for an empty chunk. -/
theorem witness_UpdateTransformsAndAbsorbs_empty :
    ∃ (s : State) (handle : KeyHandle) (aad ct : Bytes), s.operandsFit .update = true ∧
      s.ctxState = .active ∧ s.kh = some handle ∧ OperationAt (Config.bcEnc handle) aad ct s ∧
      TailZero s ∧ s.chan.din = [] :=
  ⟨demoActive .encrypt, demoHandle, [], [], by decide, rfl, rfl, demoActive_operationAt _ _, rfl,
    rfl⟩

theorem witness_EmptyUpdateChangesNothing :
    ∃ (s : State) (handle : KeyHandle), s.ctxState = .active ∧ s.kh = some handle ∧
      s.chan.din = [] := ⟨demoActive .encrypt, demoHandle, rfl, rfl, rfl⟩

theorem witness_StartEstablishesOperation :
    ∃ (s t : State) (i : Instr), (i = .startEnc ∨ i = .startDec) ∧ s.ctxState = .keyBound ∧
      exec i s = .next t := ⟨demoBound, _, .startDec, .inr rfl, rfl, rfl⟩

/-- Its clauses on a rejected FINISH: out of Active, lengths 3 and 17, and a supplied tag that is
too short. -/
theorem witness_FinishEndsOperation_rejected :
    (demoFinalized.operandsFit (.finish 16) = true ∧ demoFinalized.ctxState ≠ .active) ∧
    (∀ n ∈ [3, 17], (demoActive .encrypt).operandsFit (.finish n) = true ∧ (n < 4 ∨ 16 < n)) ∧
    ((demoActive .decrypt).operandsFit (.finish 4) = true ∧
      (demoActive .decrypt).chan.tagin.length ≠ 4) := by decide

theorem witness_FinishEndsOperation_encrypt :
    ∃ (s : State) (handle : KeyHandle) (n : Nat), s.operandsFit (.finish n) = true ∧
      s.ctxState = .active ∧ s.kh = some handle ∧ 4 ≤ n ∧ n ≤ 16 ∧ s.dir = .encrypt :=
  ⟨demoActive .encrypt, demoHandle, 16, by decide, rfl, rfl, by decide, by decide, rfl⟩

theorem witness_FinishEndsOperation_decrypt :
    ∃ (s : State) (handle : KeyHandle) (n : Nat), s.operandsFit (.finish n) = true ∧
      s.ctxState = .active ∧ s.kh = some handle ∧ 4 ≤ n ∧ n ≤ 16 ∧ s.dir = .decrypt ∧
      s.chan.tagin.length = n :=
  ⟨{ demoActive .decrypt with chan := { Channels.empty with tagin := hex 0 4 } }, demoHandle, 4,
    by decide, rfl, rfl, by decide, by decide, rfl, by decide⟩

theorem witness_OperationTagClosedForm :
    ∃ (s : State) (aad ct : Bytes) (n : Nat),
      OperationAt (Config.bcEnc demoHandle) aad ct s ∧ n = 16 :=
  ⟨demoActive .encrypt, [], [], 16, demoActive_operationAt _ _, rfl⟩

theorem witness_ActiveWithoutAKeyStops :
    ∃ (s : State) (n : Nat), s.ctxState = .active ∧ s.kh = none ∧
      s.operandsFit .update = true ∧ s.operandsFit (.finish n) = true ∧ 4 ≤ n ∧ n ≤ 16 ∧
      (s.dir = .decrypt → s.chan.tagin.length = n) :=
  ⟨{ State.reset with ctxState := .active }, 4, rfl, rfl, by decide, by decide, by decide,
    by decide, by decide⟩

theorem witness_TransitionTable_invalid :
    ∃ (i : Instr) (s : State), s.operandsFit i = true ∧ legalIn i s.ctxState = false :=
  ⟨.bindKey, demoActive .encrypt, by decide, by decide⟩

theorem witness_TransitionTable_legal :
    ∃ (i : Instr) (s : State), s.operandsFit i = true ∧ Inv s ∧ legalIn i s.ctxState = true ∧
      operandError i s = none :=
  ⟨.finish 4, demoActive .encrypt, by decide, demoActive_inv _, by decide, by decide⟩

theorem witness_TransitionTable_illegal :
    ∃ (s : State) (c : Command) (rest : List Event), s.pending = .command c :: rest ∧
      (∀ i : Instr, i.wellFormed = true → c.word ≠ encode i) :=
  ⟨issuing 0#32 Channels.empty demoFinalized, _, _, rfl, fun i _ => zero_is_no_encoding i⟩

/-- Its clauses: an illegal word. -/
theorem witness_StatusPrecedence_illegal :
    ∃ (s : State) (c : Command) (rest : List Event), Inv s ∧ s.pending = .command c :: rest ∧
      (∀ i, decode c.word ≠ .ok i) :=
  ⟨issuing 0x14#32 Channels.empty (demoActive .encrypt), _, _,
    issuing_inv _ _ _ (demoActive_inv _), rfl, fun i h => by cases h⟩

/-- Its clauses: a command in the wrong state, with a wrong operand as well. -/
theorem witness_StatusPrecedence_state :
    ∃ (s p : State) (c : Command) (rest : List Event) (i : Instr), Inv s ∧
      s.pending = .command c :: rest ∧ p = { s with chan := c.chan, pending := rest } ∧
      p.operandsFit i = true ∧ decode c.word = .ok i ∧ legalIn i p.ctxState = false ∧
      operandError i p = some .invalidTagLength :=
  ⟨issuing 0x304#32 Channels.empty demoBound, _, _, _, .finish 3,
    issuing_inv _ _ _ demoBound_inv, rfl, rfl, by decide, by decide, by decide, by decide⟩

/-- Its clauses: a supplied tag that differs. -/
theorem witness_StatusPrecedence_tag :
    ∃ (s p : State) (c : Command) (rest : List Event) (i : Instr), Inv s ∧
      s.pending = .command c :: rest ∧ p = { s with chan := c.chan, pending := rest } ∧
      p.operandsFit i = true ∧ decode c.word = .ok i ∧ legalIn i p.ctxState = true ∧
      operandError i p = none ∧ tagDiffers i p :=
  ⟨issuing 0x404#32 wrongTag (demoActive .decrypt), _, _, _, .finish 4,
    issuing_inv _ _ _ (demoActive_inv _), rfl, rfl, by decide, by decide, by decide, by decide,
    4, demoHandle, rfl, rfl, rfl, wrongTag_differs⟩

/-- Its clauses: the supplied tag is the operation's. -/
theorem witness_StatusPrecedence_ok :
    ∃ (s p : State) (c : Command) (rest : List Event) (i : Instr), Inv s ∧
      s.pending = .command c :: rest ∧ p = { s with chan := c.chan, pending := rest } ∧
      p.operandsFit i = true ∧ decode c.word = .ok i ∧ legalIn i p.ctxState = true ∧
      operandError i p = none ∧ ¬ tagDiffers i p := by
  refine ⟨issuing 0x404#32 rightTag (demoActive .decrypt), _, _, _, .finish 4,
    issuing_inv _ _ _ (demoActive_inv _), rfl, rfl, by decide, by decide, by decide, by decide, ?_⟩
  rintro ⟨n, handle, hi, -, hk, hne⟩
  cases hi
  cases hk
  exact hne rfl

theorem witness_RejectedCommandWritesNoRegister :
    ∃ (s t : State) (c : Command) (rest : List Event) (r : Response),
      s.pending = .command c :: rest ∧ step s = .next t ∧ t.resp = some r ∧
      r.status = .invalidTagLength :=
  ⟨issuing 0x304#32 Channels.empty (demoActive .encrypt), _, _, _, _, rfl, rfl, rfl, rfl⟩

theorem witness_AuthenticationFailureIsCompletedFinish :
    ∃ (s t : State) (c : Command) (rest : List Event) (r : Response),
      s.pending = .command c :: rest ∧ step s = .next t ∧ t.resp = some r ∧
      r.status = .authenticationFailure :=
  ⟨issuing 0x404#32 wrongTag (demoActive .decrypt),
    (endOperation { demoActive .decrypt with chan := wrongTag, pending := [] }).respond
      .authenticationFailure [] [], _, _, _, rfl, by
      have h := wrongTag_rejected
      show Host.Outcome.next (finishEffect (Config.bcEnc demoHandle) 4
        { demoActive .decrypt with chan := wrongTag, pending := [] }) = _
      have same : operationTag (Config.bcEnc demoHandle) 4
          { demoActive .decrypt with chan := wrongTag, pending := [] } =
          operationTag (Config.bcEnc demoHandle) 4 (demoActive .decrypt) := rfl
      simp only [finishEffect, same, endOperation_finalize]
      show Host.Outcome.next (if tagEq _ wrongTag.tagin then _ else _) = _
      rw [h]
      rfl, rfl, rfl⟩

theorem witness_ResultChannels :
    ∃ (i : Instr) (s t : State) (r : Response), exec i s = .next t ∧ t.resp = some r :=
  ⟨.update, demoActive .encrypt, _, _, rfl, rfl⟩

theorem witness_FinishReleasesOnlyItsResult :
    ∃ (s t : State) (n : Nat) (r : Response), exec (.finish n) s = .next t ∧ t.resp = some r ∧
      s.dir = .encrypt ∧ r.status = .ok :=
  ⟨demoActive .encrypt, _, 12, _, rfl, rfl, rfl, rfl⟩

theorem witness_StepKeepsTheInvariant :
    ∃ s t : State, Inv s ∧ step s = .next t ∧ t.ctxState ≠ s.ctxState :=
  ⟨issuing 2#32 Channels.empty demoBound, _, issuing_inv _ _ _ demoBound_inv, rfl, by decide⟩

theorem witness_ClearedOutsideActiveIsKept :
    ∃ s t : State, (s.ctxState ≠ .active → OpCleared s) ∧ step s = .next t ∧
      t.ctxState ≠ .active :=
  ⟨issuing 0x1004#32 Channels.empty (demoActive .encrypt), _, fun h => absurd rfl h, rfl,
    by decide⟩

/-- Beside an operand bound of two bytes, with a chunk of just two. -/
theorem witness_EveryEventIsAnswered :
    ∃ s : State, Inv s ∧ s.maxOperandBytes = some 2 ∧ s.pending ≠ [] ∧
      (∀ a b rest, s.pending ≠ .overlapping a b :: rest) ∧
      (∀ c rest i, s.pending = .command c :: rest → decode c.word = .ok i →
        State.operandsFit { s with chan := c.chan, pending := rest } i = true) := by
  have inv := issuing_inv 3#32 { Channels.empty with din := [1#8, 2#8] } _
    (demoActive_inv .encrypt)
  refine ⟨{ issuing 3#32 { Channels.empty with din := [1#8, 2#8] } (demoActive .encrypt) with
    maxOperandBytes := some 2 },
    ⟨inv.keyBound, inv.keyFromBind, inv.subkey, fun ne => absurd rfl ne, inv.frozen,
      fun _ _ _ => ⟨[], [], ?_⟩, inv.tail⟩, rfl, ?_, ?_, ?_⟩
  · have o := demoActive_operationAt (Config.bcEnc ‹KeyHandle›) .encrypt
    exact ⟨o.fill, o.buffered, o.folded, o.aadBits, o.ctBits, o.position, o.counter, o.keystream⟩
  · intro h; cases h
  · intro a b rest h; cases h
  · intro c rest i hp hd
    cases hp
    have word : decode 3#32 = .ok .update := by decide
    rw [word] at hd
    cases hd
    decide

theorem witness_OnlyBindKeyAndResetWriteTheKey :
    ∃ s t : State, step s = .next t ∧ ¬ (t.kh = s.kh ∧ t.h = s.h) :=
  ⟨issuing 1#32 { Channels.empty with key := demoKey } State.reset, _, rfl,
    fun h => by cases h.1⟩

theorem witness_OnlyFinishAndResetLeaveActive :
    ∃ s t : State, s.ctxState = .active ∧ step s = .next t ∧ t.ctxState ≠ .active :=
  ⟨issuing 0x404#32 Channels.empty (demoActive .encrypt), _, rfl, rfl, by decide⟩

theorem witness_OnlyBindKeyAndResetLeaveFinalized_leaves :
    ∃ s t : State, s.ctxState = .finalized ∧ step s = .next t ∧ t.ctxState ≠ .finalized :=
  ⟨issuing 1#32 { Channels.empty with key := demoKey } demoFinalized, _, rfl, rfl, by decide⟩

theorem witness_OnlyBindKeyAndResetLeaveFinalized_start :
    ∃ (s : State) (i : Instr), (i = .startEnc ∨ i = .startDec) ∧ s.ctxState = .finalized ∧
      s.operandsFit i = true := ⟨demoFinalized, .startEnc, .inl rfl, rfl, by decide⟩

theorem witness_OperationParametersAreFixed :
    ∃ s t : State, s.ctxState = .active ∧ t.ctxState = .active ∧ step s = .next t ∧
      t.ctBits ≠ s.ctBits :=
  ⟨issuing 3#32 { Channels.empty with din := [1#8] } (demoActive .decrypt), _, rfl, rfl, rfl,
    by decide⟩

theorem witness_NoCommandModifiesItsOperands :
    ∃ (i : Instr) (s t : State), exec i s = .next t ∧ s.chan ≠ Channels.empty :=
  ⟨.bindKey, demoBound, _, rfl, by decide⟩

theorem witness_UnusedChannelsAreNotRead :
    ∃ (i : Instr) (s t : State) (other : Channels),
      operandsOf i { s with chan := other } = operandsOf i s ∧ exec i s = .next t ∧
      other ≠ s.chan :=
  ⟨.startEnc, demoBound, _, Channels.empty, rfl, rfl, by decide⟩

theorem witness_BindKeyTwiceIsOnce :
    ∃ s t : State, exec .bindKey s = .next t ∧ t.resp = some ⟨.ok, [], []⟩ :=
  ⟨demoBound, _, rfl, rfl⟩

theorem witness_GfmulHasNoZeroDivisors : ∃ x y : Block, gfmul x y = 0#128 :=
  ⟨0#128, 3#128, by decide +kernel⟩

theorem witness_BytesAndBlocksAreInverse : ∃ b : Bytes, b.length = 16 := ⟨demoKey, by decide⟩

theorem witness_GhashClosedForm : ∃ s : State, OpCleared s := ⟨demoBound, demo_cleared _ (by simp)⟩

theorem witness_IncrementIsOfTheLow32Bits : ∃ v : Block, v.extractLsb' 0 32 = 0xFFFFFFFF#32 :=
  ⟨0xcafebabefacedbaddecaf888ffffffff#128, by decide⟩

theorem witness_CounterPeriod : ∃ n : Nat, 0 < n ∧ n < 2 ^ 32 := ⟨1, by decide, by decide⟩

theorem witness_InitialCounterBlock :
    (∃ iv : Bytes, iv.length = 12) ∧ (∃ iv : Bytes, iv.length ≠ 12 ∧ iv.length = 11) ∧
      (∃ iv : Bytes, iv.length ≠ 12 ∧ iv.length = 13) :=
  ⟨⟨hex 0 12, by decide⟩, ⟨hex 0 11, by decide⟩, ⟨hex 0 13, by decide⟩⟩

theorem witness_TagComparisonIsEquality : ∃ a b : Bytes, a.length = b.length ∧ a ≠ b :=
  ⟨[0#8], [1#8], by decide⟩

theorem witness_TruncationConsistency :
    ∃ (s : State) (handle : KeyHandle) (n : Nat), s.ctxState = .active ∧ s.kh = some handle ∧
      s.dir = .encrypt ∧ 4 ≤ n ∧ n ≤ 16 :=
  ⟨demoActive .encrypt, demoHandle, 4, rfl, rfl, rfl, by decide, by decide⟩

theorem witness_TamperedTagIsRejected :
    ∃ (s : State) (handle : KeyHandle) (n i k : Nat), s.ctxState = .active ∧
      s.kh = some handle ∧ s.dir = .decrypt ∧ 4 ≤ n ∧ n ≤ 16 ∧ i < n ∧ k < 8 ∧
      s.chan.tagin = flipBit (operationTag (Config.bcEnc handle) n s) i k ∧
      s.operandsFit (.finish n) = true :=
  ⟨{ demoActive .decrypt with chan := wrongTag }, demoHandle, 4, 0, 0, rfl, rfl, rfl, by decide,
    by decide, by decide, by decide, rfl, by decide⟩

/-- An operation with one byte of AAD, under a subkey that is not zero. -/
def demoTampered (aad : Byte) : State :=
  { demoActive .decrypt with
    h := 1#128
    y := ghash 1#128 (blocks [aad])
    aadBits := 8#64 }

theorem demoTampered_operationAt (enc : Block → Block) (aad : Byte) :
    OperationAt enc [aad] [] (demoTampered aad) where
  fill := rfl
  buffered := rfl
  folded := by simp [demoTampered, fullBlocks]
  aadBits := rfl
  ctBits := rfl
  position := rfl
  counter := by show (2#128 : Block) = inc32Times 1 1#128; decide +kernel
  keystream := fun h => absurd h (by decide)

theorem witness_TamperedDataIsRejected :
    ∃ (s s' : State) (handle : KeyHandle) (aad ct aad' ct' : Bytes),
      OperationAt (Config.bcEnc handle) aad ct s ∧
      OperationAt (Config.bcEnc handle) aad' ct' s' ∧ s'.h = s.h ∧ s'.j0 = s.j0 ∧
      s.h ≠ 0#128 ∧ (OneBitFlipped aad aad' ∧ ct' = ct) ∧ s'.ctxState = .active ∧
      s'.kh = some handle ∧ s'.dir = .decrypt ∧
      s'.chan.tagin = operationTag (Config.bcEnc handle) 16 s ∧
      s'.operandsFit (.finish 16) = true :=
  ⟨demoTampered 0#8,
    { demoTampered 1#8 with
      chan := { Channels.empty with
        tagin := operationTag (Config.bcEnc demoHandle) 16 (demoTampered 0#8) } },
    demoHandle, [0#8], [], [1#8], [], demoTampered_operationAt _ _,
    let o := demoTampered_operationAt (Config.bcEnc demoHandle) 1#8
    ⟨o.fill, o.buffered, o.folded, o.aadBits, o.ctBits, o.position, o.counter, o.keystream⟩,
    rfl, rfl, by decide, ⟨⟨0, 0, by decide, by decide, by decide⟩, rfl⟩, rfl, rfl, rfl, rfl, rfl⟩

/-- An operation with one byte of ciphertext, under a subkey that is not zero. -/
def demoTamperedCt (ct : Byte) : State :=
  { demoActive .decrypt with
    h := 1#128
    ghBuf := zeroBuf.set 0 ct
    ghFill := 1
    ctBits := 8#64
    ksPos := 1
    ctr := 3#128
    ksBuf := Config.bcEnc demoHandle 2#128 }

theorem demoTamperedCt_operationAt (ct : Byte) :
    OperationAt (Config.bcEnc demoHandle) [] [ct] (demoTamperedCt ct) where
  fill := rfl
  buffered := by
    have byte : ∀ c : Byte, (zeroBuf.set 0 c).toList.take 1 = [c] := by decide +kernel
    simpa [demoTamperedCt] using byte ct
  folded := by
    simp [demoTamperedCt, demoActive, demoBound, State.reset, fullBlocks, blocks, pad16, ghash]
  aadBits := rfl
  ctBits := rfl
  position := rfl
  counter := by
    have two : inc32Times 2 (1#128 : Block) = 3#128 := by decide +kernel
    simp [demoTamperedCt, demoActive, two]
  keystream := fun _ => by
    have one : inc32Times 1 (1#128 : Block) = 2#128 := by decide +kernel
    simp [demoTamperedCt, demoActive, one]

/-- A byte of ciphertext so far and a chunk of two bytes, with a zero tail. -/
theorem witness_UpdateTransformsAndAbsorbs :
    ∃ (s : State) (handle : KeyHandle) (aad ct : Bytes), s.operandsFit .update = true ∧
      s.ctxState = .active ∧ s.kh = some handle ∧ OperationAt (Config.bcEnc handle) aad ct s ∧
      TailZero s ∧ ct ≠ [] ∧ s.chan.din.length = 2 :=
  ⟨{ demoTamperedCt 5#8 with chan := { Channels.empty with din := [1#8, 2#8] } }, demoHandle, [],
    [5#8], by decide, rfl, rfl,
    let o := demoTamperedCt_operationAt 5#8
    ⟨o.fill, o.buffered, o.folded, o.aadBits, o.ctBits, o.position, o.counter, o.keystream⟩,
    by show (zeroBuf.set 0 5#8).toList.drop 1 = List.replicate 15 0x00#8; decide +kernel,
    by decide, rfl⟩

theorem witness_TamperedDataIsRejected_ciphertext :
    ∃ (s s' : State) (handle : KeyHandle) (aad ct aad' ct' : Bytes),
      OperationAt (Config.bcEnc handle) aad ct s ∧
      OperationAt (Config.bcEnc handle) aad' ct' s' ∧ s'.h = s.h ∧ s'.j0 = s.j0 ∧
      s.h ≠ 0#128 ∧ (aad' = aad ∧ OneBitFlipped ct ct') ∧ s'.ctxState = .active ∧
      s'.kh = some handle ∧ s'.dir = .decrypt ∧
      s'.chan.tagin = operationTag (Config.bcEnc handle) 16 s ∧
      s'.operandsFit (.finish 16) = true :=
  ⟨demoTamperedCt 0#8,
    { demoTamperedCt 128#8 with
      chan := { Channels.empty with
        tagin := operationTag (Config.bcEnc demoHandle) 16 (demoTamperedCt 0#8) } },
    demoHandle, [], [0#8], [], [128#8], demoTamperedCt_operationAt _,
    let o := demoTamperedCt_operationAt 128#8
    ⟨o.fill, o.buffered, o.folded, o.aadBits, o.ctBits, o.position, o.counter, o.keystream⟩,
    rfl, rfl, by decide, ⟨rfl, ⟨0, 7, by decide, by decide, by decide⟩⟩, rfl, rfl, rfl, rfl, rfl⟩

theorem witness_SealComputesGcm :
    ∃ (s : State) (key : Bytes) (n : Nat), s.ctxState ≠ .active ∧ s.maxOperandBytes = none ∧
      keyLenOk key.length = true ∧ tagLenOk n = true :=
  ⟨State.reset, demoKey, 16, by decide, rfl, by decide, by decide⟩

/-- Four bytes of the tag of the empty message under demoKey with the empty IV. -/
def demoExpected : Bytes :=
  (bytes16 (Config.bcEnc demoHandle (deriveJ0 (Config.bcEnc demoHandle 0#128) []) ^^^
    ghash (Config.bcEnc demoHandle 0#128)
      (blocks [] ++ blocks [] ++ [lengthBlock (bitlen []) (bitlen [])]))).take 4

/-- Its clause for a tag that is the closed form. -/
theorem witness_OpenVerifiesGcm_right :
    ∃ (s : State) (key iv aad tag : Bytes) (chunks : List Bytes) (handle : KeyHandle)
      (h j0 : Block) (ct expected : Bytes),
      s.ctxState ≠ .active ∧ s.maxOperandBytes = none ∧ keyLenOk key.length = true ∧
      tagLenOk tag.length = true ∧ handle = Config.bcBind key ∧
      h = Config.bcEnc handle 0#128 ∧ j0 = deriveJ0 h iv ∧ ct = chunks.flatten ∧
      expected = (bytes16 (Config.bcEnc handle j0 ^^^ ghash h
        (blocks aad ++ blocks ct ++ [lengthBlock (bitlen aad) (bitlen ct)]))).take tag.length ∧
      tag = expected :=
  ⟨State.reset, demoKey, [], [], demoExpected, [], _, _, _, [], demoExpected, by decide, rfl,
    by decide, rfl, rfl, rfl, rfl, rfl, rfl, rfl⟩

/-- Its clause for a tag that is not. -/
theorem witness_OpenVerifiesGcm_wrong :
    ∃ (s : State) (key iv aad tag : Bytes) (chunks : List Bytes) (handle : KeyHandle)
      (h j0 : Block) (ct expected : Bytes),
      s.ctxState ≠ .active ∧ s.maxOperandBytes = none ∧ keyLenOk key.length = true ∧
      tagLenOk tag.length = true ∧ handle = Config.bcBind key ∧
      h = Config.bcEnc handle 0#128 ∧ j0 = deriveJ0 h iv ∧ ct = chunks.flatten ∧
      expected = (bytes16 (Config.bcEnc handle j0 ^^^ ghash h
        (blocks aad ++ blocks ct ++ [lengthBlock (bitlen aad) (bitlen ct)]))).take tag.length ∧
      tag ≠ expected :=
  ⟨State.reset, demoKey, [], [], flipBit demoExpected 0 0, [], _, _, _, [], demoExpected,
    by decide, rfl, by decide, rfl, rfl, rfl, rfl, rfl, rfl, by
      intro h
      have first := congrArg (fun l : Bytes => l.getD 0 0#8) h
      have one : ∀ a : Byte, a ^^^ 1#8 ≠ a := by decide
      exact one _ first⟩

theorem witness_StreamingEquivalence :
    ∃ (s : State) (key : Bytes) (chunks chunks' : List Bytes) (n : Nat) (tag : Bytes),
      s.ctxState ≠ .active ∧ s.maxOperandBytes = none ∧ keyLenOk key.length = true ∧
      chunks.flatten = chunks'.flatten ∧ chunks ≠ chunks' ∧ tagLenOk n = true ∧
      tagLenOk tag.length = true :=
  ⟨State.reset, demoKey, [[1#8, 2#8]], [[1#8], [], [2#8]], 4, hex 0 4, by decide, rfl, by decide,
    by decide, by decide, by decide, by decide⟩

theorem witness_SealThenOpenRoundTrip :
    ∃ (s s' : State) (key : Bytes) (n : Nat), s.ctxState ≠ .active ∧
      s.maxOperandBytes = none ∧ s'.ctxState ≠ .active ∧ s'.maxOperandBytes = none ∧
      keyLenOk key.length = true ∧ tagLenOk n = true :=
  ⟨State.reset, demoFinalized, demoKey, 16, by decide, rfl, by decide, rfl, by decide, by decide⟩

end Sys2Proof.Tests
end

section
/-! PROOFS. Bytes and blocks are inverse to each other (00_scope.md R11): both conversions read bit
by bit. -/

namespace Sys2Proof.Machine

/-- One more byte shifts the block up by eight bits and enters below (R11). -/
theorem blk_concat (b : Bytes) (x : Byte) :
    blk (b ++ [x]) = (blk b <<< 8) ||| x.setWidth 128 := by
  simp only [blk, List.foldl_append, List.foldl_cons, List.foldl_nil]

/-- Bit i of a block is bit `i % 8` of the byte that stands `i / 8` places before the last one
(20_memory.md R53 (a)). -/
theorem blk_getLsbD (b : Bytes) (i : Nat) (bound : i < 128) :
    (blk b).getLsbD i = (b.reverse.getD (i / 8) 0x00#8).getLsbD (i % 8) := by
  induction b using List.reverseRecOn generalizing i with
  | nil => simp [blk]
  | append_singleton b x ih =>
    rw [blk_concat, List.reverse_concat, BitVec.getLsbD_or, BitVec.getLsbD_shiftLeft,
      BitVec.getLsbD_setWidth]
    by_cases low : i < 8
    · have byte : i / 8 = 0 := Nat.div_eq_of_lt low
      simp [low, bound, byte, Nat.mod_eq_of_lt low]
    · have byte : i / 8 = (i - 8) / 8 + 1 := by omega
      have bit : i % 8 = (i - 8) % 8 := by omega
      have above : x.getLsbD i = false := BitVec.getLsbD_of_ge x i (by omega)
      simp [low, bound, above, ih (i - 8) (by omega), byte, bit]

/-- Bit j of byte k of a block (R11). -/
theorem blockByte_getLsbD (v : Block) (k j : Nat) (bound : j < 8) :
    (blockByte v k).getLsbD j = v.getLsbD (120 - 8 * k + j) := by
  simp [blockByte, bound]

theorem bytes16_getElem (v : Block) (k : Nat) (bound : k < (bytes16 v).length) :
    (bytes16 v)[k] = blockByte v k := by
  simp [bytes16]

/-- Counted from the last byte, byte k of `bytes16` is byte 15 - k (R11). -/
theorem bytes16_reverse_getD (v : Block) (k : Nat) (bound : k < 16) :
    (bytes16 v).reverse.getD k 0x00#8 = blockByte v (15 - k) := by
  rw [List.getD_eq_getElem _ _ (by simpa using bound), List.getElem_reverse, bytes16_getElem,
    bytes16_length]

theorem bytes16_blk (b : Bytes) (sixteen : b.length = 16) : bytes16 (blk b) = b := by
  refine List.ext_getElem (by simp [sixteen]) fun k hk hk' => ?_
  rw [bytes16_getElem]
  refine BitVec.eq_of_getLsbD_eq fun j hj => ?_
  have place : (120 - 8 * k + j) / 8 = b.length - 1 - k := by omega
  have bit : (120 - 8 * k + j) % 8 = j := by omega
  have inside : b.length - 1 - k < b.reverse.length := by simp; omega
  have twice : b.length - 1 - (b.length - 1 - k) = k := by omega
  rw [blockByte_getLsbD _ _ _ hj, blk_getLsbD _ _ (by omega), place, bit,
    List.getD_eq_getElem _ _ inside, List.getElem_reverse]
  simp only [twice]

theorem blk_bytes16 (v : Block) : blk (bytes16 v) = v := by
  refine BitVec.eq_of_getLsbD_eq fun i hi => ?_
  have place : 120 - 8 * (15 - i / 8) + i % 8 = i := by omega
  rw [blk_getLsbD _ _ hi, bytes16_reverse_getD _ _ (by omega),
    blockByte_getLsbD _ _ _ (Nat.mod_lt i (by decide)), place]

/-- Settles O45: each direction compares the two sides bit by bit. -/
theorem bytesAndBlocksAreInverse : Obligations.BytesAndBlocksAreInverse :=
  ⟨bytes16_blk, blk_bytes16⟩

end Sys2Proof.Machine
end

section
/-! PROOFS. The accumulator along a ciphertext (41_ghash.md R120 to R126): after every byte it holds
what 10_state.md R35 says, and FINALIZE gives the closed form. -/

namespace Sys2Proof.Machine

/-! ### The blocks of a growing string -/

/-- A whole piece of a string stays that piece when the string grows. -/
theorem piece16_append_inside (a b : Bytes) (k : Nat) (inside : 16 * k + 16 ≤ a.length) :
    piece16 (a ++ b) k = piece16 a k := by
  simp only [piece16]
  rw [List.drop_append_of_le_length (by omega), List.take_append_of_le_length (by simp; omega)]

/-- The piece at the end of a string, once it is complete. -/
theorem piece16_append_last (a b : Bytes) (k : Nat) (start : 16 * k ≤ a.length)
    (complete : a.length + b.length = 16 * k + 16) :
    piece16 (a ++ b) k = a.drop (16 * k) ++ b := by
  simp only [piece16]
  rw [List.drop_append_of_le_length start, List.take_of_length_le (by simp; omega)]

/-- Bytes that complete no block leave the whole blocks as they are (00_scope.md R11). -/
theorem fullBlocks_append_of_same (a b : Bytes)
    (same : (a.length + b.length) / 16 = a.length / 16) : fullBlocks (a ++ b) = fullBlocks a := by
  simp only [fullBlocks, List.length_append, same]
  refine List.map_congr_left fun k hk => ?_
  have inside : k < a.length / 16 := List.mem_range.mp hk
  rw [piece16_append_inside a b k (by omega)]

/-- Bytes that complete the last block add that block (R11). -/
theorem fullBlocks_append_of_complete (a b : Bytes)
    (complete : a.length + b.length = 16 * (a.length / 16) + 16) :
    fullBlocks (a ++ b) = fullBlocks a ++ [blk (a.drop (16 * (a.length / 16)) ++ b)] := by
  have count : (a.length + b.length) / 16 = a.length / 16 + 1 := by omega
  simp only [fullBlocks, List.length_append, count, List.range_succ, List.map_append,
    List.map_cons, List.map_nil]
  rw [piece16_append_last a b _ (by omega) complete]
  congr 1
  refine List.map_congr_left fun k hk => ?_
  have inside : k < a.length / 16 := List.mem_range.mp hk
  rw [piece16_append_inside a b k (by omega)]

/-- A string that ends inside a block has its whole blocks and that one, padded (R11). -/
theorem blocks_of_partial (b : Bytes) (part : b.length % 16 ≠ 0) :
    blocks b = fullBlocks b ++ [blk (pad16 (b.drop (16 * (b.length / 16))))] := by
  have zeros : 16 - b.length % 16 < 16 := by omega
  have rest : (b.drop (16 * (b.length / 16))).length % 16 = b.length % 16 := by simp; omega
  have padded : blocks b = fullBlocks (pad16 b) := rfl
  rw [padded, pad16, fullBlocks_append_of_complete _ _ (by simp; omega)]
  simp only [pad16, rest]

/-- Hashing one block more is one step more (41_ghash.md R120, R121). -/
theorem ghash_concat (h : Block) (bs : List Block) (b : Block) :
    ghash h (bs ++ [b]) = ghashStep h (ghash h bs) b := by
  simp only [ghash, ghashFrom_append, ghashFrom_cons, ghashFrom_nil]

/-! ### The accumulator's part of an operation -/

/-- The accumulator's three points of 10_state.md R35: what it holds once `aad` and the ciphertext
`ct` have been absorbed. -/
structure AbsorbedAt (aad ct : Bytes) (s : State) : Prop where
  fill : s.ghFill.val = ct.length % 16
  buffered : s.ghBuf.toList.take s.ghFill.val = ct.drop (16 * (ct.length / 16))
  folded : s.y = ghash s.h (blocks aad ++ fullBlocks ct)

/-- Only H, Y, GH_BUF and GH_FILL enter the accumulator's points. -/
theorem absorbedAt_congr {aad ct : Bytes} {s t : State} (at_s : AbsorbedAt aad ct s)
    (h : t.h = s.h) (y : t.y = s.y) (ghBuf : t.ghBuf = s.ghBuf) (ghFill : t.ghFill = s.ghFill) :
    AbsorbedAt aad ct t where
  fill := by rw [ghFill, at_s.fill]
  buffered := by rw [ghBuf, ghFill, at_s.buffered]
  folded := by rw [y, h, at_s.folded]

/-- Writing the place after the first n bytes makes it the last of the first n + 1. -/
theorem take_succ_set (l : Bytes) (n : Nat) (c : Byte) (inside : n < l.length) :
    (l.set n c).take (n + 1) = l.take n ++ [c] := by
  rw [List.take_succ_eq_append_getElem (by simpa using inside), List.take_set_of_le (le_refl n),
    List.getElem_set_self]

/-- ABSORB_CT_BYTE takes the accumulator to the ciphertext with that byte (41_ghash.md R123). -/
theorem absorbCtByte_absorbedAt (aad ct : Bytes) (c : Byte) (s : State)
    (at_s : AbsorbedAt aad ct s) : AbsorbedAt aad (ct ++ [c]) (absorbCtByte c s) := by
  obtain ⟨fill, buffered, folded⟩ := at_s
  have written : (s.ghBuf.set s.ghFill.val c s.ghFill.isLt).toList.take (s.ghFill.val + 1) =
      ct.drop (16 * (ct.length / 16)) ++ [c] := by
    rw [Vector.toList_set, take_succ_set _ _ _ (by simp), buffered]
  by_cases room : s.ghFill.val + 1 < 16
  · have same : (ct.length + 1) / 16 = ct.length / 16 := by omega
    rw [absorbCtByte_of_room c s room]
    constructor
    · simp only [List.length_append, List.length_singleton]; omega
    · simp only [List.length_append, List.length_singleton, same]
      rw [List.drop_append_of_le_length (by omega)]; exact written
    · rw [fullBlocks_append_of_same ct [c] (by simpa using same)]; exact folded
  · have last : s.ghFill.val + 1 = 16 := by omega
    have whole : (s.ghBuf.set s.ghFill.val c s.ghFill.isLt).toList =
        ct.drop (16 * (ct.length / 16)) ++ [c] := by
      rw [← written, last, List.take_of_length_le (by simp)]
    rw [absorbCtByte_of_full c s room]
    constructor
    · simp only [List.length_append, List.length_singleton, Fin.val_zero]; omega
    · simp only [Fin.val_zero, List.take_zero]
      rw [List.drop_of_length_le (by simp; omega)]
    · rw [fullBlocks_append_of_complete ct [c] (by simp; omega), ← List.append_assoc,
        ghash_concat, whole]
      simp only [folded]

/-- FINALIZE gives the closed form of S (R125, R126). -/
theorem finalize_y_of_absorbedAt (aad ct : Bytes) (s : State) (at_s : AbsorbedAt aad ct s) :
    (finalize s).y =
      ghash s.h (blocks aad ++ blocks ct ++ [lengthBlock s.aadBits s.ctBits]) := by
  obtain ⟨fill, buffered, folded⟩ := at_s
  rw [ghash_concat]
  by_cases empty : s.ghFill = 0
  · have aligned : ct.length % 16 = 0 := by rw [← fill, empty]; rfl
    rw [finalize_of_empty s empty, blocks_of_aligned ct aligned, ← folded]
  · have part : ct.length % 16 ≠ 0 := by
      rw [← fill]; exact fun zero => empty (Fin.ext zero)
    rw [finalize_of_partial s empty, blocks_of_partial ct part, ← List.append_assoc, ghash_concat,
      ← folded, buffered]

end Sys2Proof.Machine
end

section
/-! PROOFS. The keystream along an operation (42_ctr_keystream.md R143 to R145): KS_BYTE delivers
byte number n of the closed form and moves to number n + 1. -/

namespace Sys2Proof.Machine

/-- Byte number n of the keystream of an operation (R145). -/
def keystreamByte (enc : Block → Block) (j0 : Block) (n : Nat) : Byte :=
  blockByte (enc (inc32Times (n / 16 + 1) j0)) (n % 16)

theorem keystreamFrom_zero (enc : Block → Block) (j0 : Block) (start : Nat) :
    keystreamFrom enc j0 start 0 = [] := rfl

theorem keystreamFrom_succ (enc : Block → Block) (j0 : Block) (start n : Nat) :
    keystreamFrom enc j0 start (n + 1) =
      keystreamByte enc j0 start :: keystreamFrom enc j0 (start + 1) n := by
  simp only [keystreamFrom, List.range_succ_eq_map, List.map_cons, List.map_map]
  refine congrArg (List.cons _) (List.map_congr_left fun k _ => ?_)
  have shift : start + (k + 1) = start + 1 + k := by omega
  simp only [Function.comp_apply, Nat.succ_eq_add_one, shift]

/-- The keystream in two parts (R145). -/
theorem keystreamFrom_add (enc : Block → Block) (j0 : Block) (start m n : Nat) :
    keystreamFrom enc j0 start (m + n) =
      keystreamFrom enc j0 start m ++ keystreamFrom enc j0 (start + m) n := by
  induction m generalizing start with
  | zero => simp [keystreamFrom_zero]
  | succ m ih =>
    have total : m + 1 + n = m + n + 1 := by omega
    have next : start + 1 + m = start + (m + 1) := by omega
    rw [total, keystreamFrom_succ, keystreamFrom_succ, ih, List.cons_append, next]

@[simp] theorem keystreamFrom_length (enc : Block → Block) (j0 : Block) (start n : Nat) :
    (keystreamFrom enc j0 start n).length = n := by
  simp [keystreamFrom]

@[simp] theorem xorBytes_nil (b : Bytes) : xorBytes [] b = [] := rfl

@[simp] theorem xorBytes_cons (x y : Byte) (a b : Bytes) :
    xorBytes (x :: a) (y :: b) = (x ^^^ y) :: xorBytes a b := rfl

theorem xorBytes_length (a b : Bytes) (same : a.length = b.length) :
    (xorBytes a b).length = a.length := by
  simp [xorBytes, same]

theorem xorBytes_append (a a' b b' : Bytes) (same : a.length = b.length) :
    xorBytes (a ++ a') (b ++ b') = xorBytes a b ++ xorBytes a' b' := by
  simp only [xorBytes]; exact List.zipWith_append same

/-- The keystream generator's points of 10_state.md R35: where it stands once n bytes of the
keystream from J0 on have been used. -/
structure KeystreamAt (enc : Block → Block) (n : Nat) (s : State) : Prop where
  position : s.ksPos.val = if n % 16 = 0 then 16 else n % 16
  counter : s.ctr = inc32Times ((n + 15) / 16 + 1) s.j0
  keystream : 0 < n → s.ksBuf = enc (inc32Times ((n + 15) / 16) s.j0)

/-- Only J0, CTR, KS_BUF and KS_POS enter the generator's points. -/
theorem keystreamAt_congr {enc : Block → Block} {n : Nat} {s t : State}
    (at_s : KeystreamAt enc n s) (j0 : t.j0 = s.j0) (ctr : t.ctr = s.ctr)
    (ksBuf : t.ksBuf = s.ksBuf) (ksPos : t.ksPos = s.ksPos) : KeystreamAt enc n t where
  position := by rw [ksPos, at_s.position]
  counter := by rw [ctr, j0, at_s.counter]
  keystream := fun some_used => by rw [ksBuf, j0, at_s.keystream some_used]

/-- No unused byte is left exactly at a block boundary of the keystream (R28, R35). -/
theorem keystreamAt_spent_iff {enc : Block → Block} {n : Nat} {s : State}
    (at_s : KeystreamAt enc n s) : s.ksPos = 16 ↔ n % 16 = 0 := by
  have position := at_s.position
  rw [Fin.ext_iff]
  show s.ksPos.val = 16 ↔ _
  split at position <;> omega

/-- KS_BYTE delivers byte number n of the keystream and moves on by one (R144, R145). -/
theorem ksByte_keystreamAt (enc : Block → Block) (n : Nat) (s : State)
    (at_s : KeystreamAt enc n s) :
    (ksByte enc s).2 = keystreamByte enc s.j0 n ∧ KeystreamAt enc (n + 1) (ksByte enc s).1 := by
  have position := at_s.position
  have counter := at_s.counter
  have next : (n + 1 + 15) / 16 = n / 16 + 1 := by omega
  by_cases spent : s.ksPos = 16
  · have boundary : n % 16 = 0 := (keystreamAt_spent_iff at_s).mp spent
    have block : (n + 15) / 16 = n / 16 := by omega
    have one : (n + 1) % 16 = 1 := by omega
    rw [block] at counter
    rw [ksByte_of_spent enc s spent]
    refine ⟨by rw [keystreamByte, boundary, counter], ?_, ?_, fun _ => ?_⟩
    · simp [one]
    · simp only [next, counter]; rfl
    · simp only [next, counter]
  · have inside : n % 16 ≠ 0 := fun zero => spent ((keystreamAt_spent_iff at_s).mpr zero)
    have block : (n + 15) / 16 = n / 16 + 1 := by omega
    rw [if_neg inside] at position
    rw [ksByte_of_left enc s spent]
    refine ⟨?_, ?_, ?_, fun _ => ?_⟩
    · rw [keystreamByte, at_s.keystream (by omega), block, position]
    · have bump : (s.ksPos + 1).val = n % 16 + 1 := by
        rw [Fin.val_add, position, Fin.val_one]; omega
      show (s.ksPos + 1).val = _
      rw [bump]; split <;> omega
    · simp only [next, counter, block]
    · simp only [next, at_s.keystream (by omega : 0 < n), block]

end Sys2Proof.Machine
end

section
/-! PROOFS. UPDATE and FINISH inside an operation (43_context_commands.md R170, R176): the output,
the registers it leaves, and the tag. -/

namespace Sys2Proof.Machine

/-- Which of the two byte strings of a chunk is the ciphertext (41_ghash.md R127). -/
def ciphertextOf (d : Direction) (input output : Bytes) : Bytes :=
  match d with
  | .encrypt => output
  | .decrypt => input

theorem ciphertextOf_append (d : Direction) (a a' b b' : Bytes) :
    ciphertextOf d (a ++ a') (b ++ b') = ciphertextOf d a b ++ ciphertextOf d a' b' := by
  cases d <;> rfl

theorem ciphertextOf_length (d : Direction) (a b : Bytes) (same : b.length = a.length) :
    (ciphertextOf d a b).length = a.length := by
  cases d
  · exact same
  · rfl

/-- An operation's state is the accumulator's part, the generator's part and the two lengths
(10_state.md R35). -/
theorem operationAt_iff (enc : Block → Block) (aad ct : Bytes) (s : State) :
    OperationAt enc aad ct s ↔ AbsorbedAt aad ct s ∧ KeystreamAt enc ct.length s ∧
      s.aadBits = bitlen aad ∧ s.ctBits = bitlen ct := by
  constructor
  · intro o
    exact ⟨⟨o.fill, o.buffered, o.folded⟩, ⟨o.position, o.counter, o.keystream⟩, o.aadBits,
      o.ctBits⟩
  · rintro ⟨⟨fill, buffered, folded⟩, ⟨position, counter, keystream⟩, aadBits, ctBits⟩
    exact ⟨fill, buffered, folded, aadBits, ctBits, position, counter, keystream⟩

/-- One byte of UPDATE in either direction: the byte number n of the keystream is combined with it,
and the ciphertext byte is absorbed (R170). -/
theorem updateByte_spec (enc : Block → Block) (aad ct : Bytes) (n : Nat) (d : Byte) (s : State)
    (absorbed : AbsorbedAt aad ct s) (stream : KeystreamAt enc n s) :
    (updateByte enc d s).2 = d ^^^ keystreamByte enc s.j0 n ∧
      AbsorbedAt aad (ct ++ ciphertextOf s.dir [d] [(updateByte enc d s).2])
        (updateByte enc d s).1 ∧
      KeystreamAt enc (n + 1) (updateByte enc d s).1 := by
  cases hd : s.dir with
  | encrypt =>
    obtain ⟨byte, moved⟩ := ksByte_keystreamAt enc n s stream
    obtain ⟨y, ghBuf, ghFill⟩ := ksByte_accumulator enc s
    have kept := absorbedAt_congr absorbed (ksByte_streamFrame enc s).h y ghBuf ghFill
    rw [updateByte_encrypt enc d s hd]
    exact ⟨by rw [byte], absorbCtByte_absorbedAt aad ct _ _ kept,
      keystreamAt_congr moved (by simp) (by simp) (by simp) (by simp)⟩
  | decrypt =>
    have kept : KeystreamAt enc n (absorbCtByte d s) :=
      keystreamAt_congr stream (by simp) (by simp) (by simp) (by simp)
    obtain ⟨byte, moved⟩ := ksByte_keystreamAt enc n _ kept
    obtain ⟨y, ghBuf, ghFill⟩ := ksByte_accumulator enc (absorbCtByte d s)
    rw [updateByte_decrypt enc d s hd]
    exact ⟨by rw [byte, absorbCtByte_j0],
      absorbedAt_congr (absorbCtByte_absorbedAt aad ct d s absorbed)
        (ksByte_streamFrame enc _).h y ghBuf ghFill, moved⟩

/-- The byte loop of UPDATE: its output is the chunk combined with the keystream from byte number n
on, and its ciphertext is absorbed (R145, R170). -/
theorem updateBytes_spec (enc : Block → Block) (aad ct : Bytes) (n : Nat) (ds : Bytes) (s : State)
    (absorbed : AbsorbedAt aad ct s) (stream : KeystreamAt enc n s) :
    (updateBytes enc ds s).2 = xorBytes ds (keystreamFrom enc s.j0 n ds.length) ∧
      AbsorbedAt aad (ct ++ ciphertextOf s.dir ds (updateBytes enc ds s).2)
        (updateBytes enc ds s).1 ∧
      KeystreamAt enc (n + ds.length) (updateBytes enc ds s).1 := by
  induction ds generalizing ct n s with
  | nil =>
    have none_absorbed : ciphertextOf s.dir [] [] = [] := by cases s.dir <;> rfl
    simpa [none_absorbed] using And.intro absorbed stream
  | cons d ds ih =>
    obtain ⟨byte, absorbed', stream'⟩ := updateByte_spec enc aad ct n d s absorbed stream
    obtain ⟨out, absorbed'', stream''⟩ := ih _ (n + 1) _ absorbed' stream'
    have frame := updateByte_streamFrame enc d s
    have count : n + (d :: ds).length = n + 1 + ds.length := by simp; omega
    rw [frame.j0] at out
    rw [frame.dir, List.append_assoc, ← ciphertextOf_append] at absorbed''
    rw [updateBytes_cons, count]
    refine ⟨?_, absorbed'', stream''⟩
    simp only [List.length_cons, keystreamFrom_succ, xorBytes_cons, byte, out]

/-- Bit lengths add up (00_scope.md R13). -/
theorem bitlen_append (a b : Bytes) : bitlen (a ++ b) = bitlen a + bitlen b := by
  simp only [bitlen, List.length_append, Nat.mul_add, BitVec.ofNat_add]

theorem bitlen_congr {a b : Bytes} (same : a.length = b.length) : bitlen a = bitlen b := by
  simp only [bitlen, same]

/-- The output of UPDATE in an operation whose ciphertext so far is `ct` (R145, R170). -/
theorem updateEffect_resp (enc : Block → Block) (aad ct : Bytes) (s : State)
    (op : OperationAt enc aad ct s) :
    (updateEffect enc s).resp = some ⟨.ok,
      xorBytes s.chan.din (keystreamFrom enc s.j0 ct.length s.chan.din.length), []⟩ := by
  obtain ⟨absorbed, stream, -, -⟩ := (operationAt_iff enc aad ct s).mp op
  obtain ⟨out, -, -⟩ := updateBytes_spec enc aad ct _ s.chan.din s absorbed stream
  rw [updateEffect_eq, out]

/-- UPDATE takes an operation to the one whose ciphertext is longer by the chunk's (R170). -/
theorem updateEffect_operationAt (enc : Block → Block) (aad ct : Bytes) (s : State)
    (op : OperationAt enc aad ct s) :
    OperationAt enc aad (ct ++ ciphertextOf s.dir s.chan.din
      (xorBytes s.chan.din (keystreamFrom enc s.j0 ct.length s.chan.din.length)))
      (updateEffect enc s) := by
  obtain ⟨absorbed, stream, aadBits, ctBits⟩ := (operationAt_iff enc aad ct s).mp op
  obtain ⟨out, absorbed', stream'⟩ := updateBytes_spec enc aad ct _ s.chan.din s absorbed stream
  have grown := ciphertextOf_length s.dir s.chan.din (updateBytes enc s.chan.din s).2 (by simp)
  rw [updateEffect_eq, ← out, operationAt_iff]
  refine ⟨absorbedAt_congr absorbed' rfl rfl rfl rfl, ?_, ?_, ?_⟩
  · rw [List.length_append, grown]; exact keystreamAt_congr stream' rfl rfl rfl rfl
  · exact (updateBytes_streamFrame enc s.chan.din s).aadBits.trans aadBits
  · rw [bitlen_append, bitlen_congr grown, ← ctBits]

/-- UPDATE writes no register but those of the stream and CT_BITS (R170). -/
theorem updateEffect_frame (enc : Block → Block) (s : State) :
    (updateEffect enc s).ctxState = s.ctxState ∧ (updateEffect enc s).kh = s.kh ∧
      (updateEffect enc s).h = s.h ∧ (updateEffect enc s).dir = s.dir ∧
      (updateEffect enc s).j0 = s.j0 ∧ (updateEffect enc s).aadBits = s.aadBits ∧
      SameOutside s (updateEffect enc s) := by
  have frame := updateBytes_streamFrame enc s.chan.din s
  rw [updateEffect_eq]
  exact ⟨frame.ctxState, frame.kh, frame.h, frame.dir, frame.j0, frame.aadBits, frame.chan,
    frame.pending, frame.maxOperandBytes⟩

/-- A START puts the registers where an operation without ciphertext has them (R165, 10_state.md
R35). -/
theorem startEffect_operationAt (enc : Block → Block) (d : Direction) (s : State) :
    OperationAt enc s.chan.aad [] (startEffect d s) := by
  rw [startEffect_eq]
  exact ⟨rfl, rfl, by simp [fullBlocks], rfl, rfl, rfl, rfl, fun some_used => by cases some_used⟩

/-- The tag of an operation in closed form (R176, 41_ghash.md R126, 44_tag.md R190, R191). -/
theorem operationTag_of_operationAt (enc : Block → Block) (aad ct : Bytes) (n : Nat) (s : State)
    (op : OperationAt enc aad ct s) :
    operationTag enc n s = (bytes16 (enc s.j0 ^^^ ghash s.h
      (blocks aad ++ blocks ct ++ [lengthBlock (bitlen aad) (bitlen ct)]))).take n := by
  obtain ⟨absorbed, -, aadBits, ctBits⟩ := (operationAt_iff enc aad ct s).mp op
  simp only [operationTag, trunc, firstBytes, tagFull, finalize_j0,
    finalize_y_of_absorbedAt aad ct s absorbed, aadBits, ctBits]

/-- A tag of a legal length is that long (44_tag.md R191). -/
theorem operationTag_length (enc : Block → Block) (n : Nat) (s : State) (bound : n ≤ 16) :
    (operationTag enc n s).length = n := by
  rw [operationTag, trunc_length _ n bound]

/-! ### The comparison of tags (44_tag.md R192) -/

/-- A fold of ORs is zero exactly when nothing in it was not. -/
theorem foldl_or_eq_zero_iff (ds : Bytes) (acc : Byte) :
    ds.foldl (fun a d => a ||| d) acc = 0x00#8 ↔ acc = 0x00#8 ∧ ∀ d ∈ ds, d = 0x00#8 := by
  induction ds generalizing acc with
  | nil => simp
  | cons d ds ih => simp [ih, BitVec.or_eq_zero_iff, and_assoc]

/-- TAG_EQ of two strings of one length is equality (R192). -/
theorem tagEq_iff_eq (a b : Bytes) (same : a.length = b.length) : tagEq a b = true ↔ a = b := by
  rw [tagEq, beq_iff_eq, foldl_or_eq_zero_iff]
  simp only [true_and]
  induction a generalizing b with
  | nil => simp [List.length_eq_zero_iff.mp same.symm]
  | cons x a ih =>
    obtain ⟨y, b, rfl⟩ := List.exists_cons_of_length_eq_add_one same.symm
    simp [ih b (by simpa using same), BitVec.xor_eq_zero_iff]

end Sys2Proof.Machine
end

section
/-! PROOFS. Running lines: what an assembled line does at the port (30_encoding.md R80, R81). -/

namespace Sys2Proof.Machine

/-- The decoder reads back the instruction of every word the encoder writes (R76). -/
theorem decode_encode (i : Instr) (wf : i.wellFormed = true) : decode (encode i) = .ok i := by
  cases i with
  | bindKey => decide
  | startEnc => decide
  | startDec => decide
  | update => decide
  | finish tagLen =>
    have bound : tagLen ≤ 31 := by simpa [Instr.wellFormed] using wf
    have all : ∀ n : Fin 32, decode (encode (.finish n.val)) = .ok (.finish n.val) := by
      decide +kernel
    exact all ⟨tagLen, by omega⟩

/-- A line that assembles runs its instruction on the state with its operands at the port, and its
answer comes back (R80, 70_reset_and_hazards.md R240). -/
theorem transact_line {l : AsmLine} {s t : State} {r : Response}
    (wf : l.instr.wellFormed = true) (run : exec l.instr { s with chan := l.channels } = .next t)
    (answer : t.resp = some r) :
    transact ⟨encode l.instr, l.channels⟩ s = some (r, t) :=
  transact_of_next ((step_queueCommand_of_decode s (decode_encode l.instr wf)).trans run) answer

/-- A program runs exactly when it assembles, as the script of its commands. -/
theorem runLines_eq_some_iff (ls : List AsmLine) (s : State) (p : List Response × State) :
    runLines ls s = some p ↔ ∃ cs, assembleAll ls = some cs ∧ runScript cs s = some p := by
  rw [runLines]
  cases assembleAll ls <;> simp

theorem assembleAll_cons {l : AsmLine} {ls : List AsmLine} {cs : List Command}
    (wf : l.instr.wellFormed = true) (rest : assembleAll ls = some cs) :
    assembleAll (l :: ls) = some (⟨encode l.instr, l.channels⟩ :: cs) := by
  simp only [assembleAll, assemble, if_pos wf, rest]

/-- A line answered with OK is followed by the rest of the program (R81). -/
theorem runLines_cons_of_ok {l : AsmLine} {ls : List AsmLine} {s t u : State} {r : Response}
    {rs : List Response} (wf : l.instr.wellFormed = true)
    (run : exec l.instr { s with chan := l.channels } = .next t) (answer : t.resp = some r)
    (ok : r.status = .ok) (rest : runLines ls t = some (rs, u)) :
    runLines (l :: ls) s = some (r :: rs, u) := by
  obtain ⟨cs, assembled, ran⟩ := (runLines_eq_some_iff ls t _).mp rest
  exact (runLines_eq_some_iff _ s _).mpr ⟨_, assembleAll_cons wf assembled,
    runScript_cons_of_ok (transact_line wf run answer) ok ran⟩

/-- The last line of a program ends it, whatever its answer (R81). -/
theorem runLines_last {l : AsmLine} {s t : State} {r : Response}
    (wf : l.instr.wellFormed = true) (run : exec l.instr { s with chan := l.channels } = .next t)
    (answer : t.resp = some r) : runLines [l] s = some ([r], t) := by
  have transacted := transact_line wf run answer
  refine (runLines_eq_some_iff _ s _).mpr ⟨_, assembleAll_cons wf rfl, ?_⟩
  by_cases ok : r.status = .ok
  · exact runScript_cons_of_ok transacted ok (runScript_nil t)
  · exact runScript_cons_of_not_ok transacted ok

/-! ### Commands that pass their checks -/

/-- BIND_KEY of a legal key outside Active has its effect (43_context_commands.md R161). -/
theorem exec_bindKey_of_legal (s : State) (fits : s.operandsFit .bindKey = true)
    (idle : s.ctxState ≠ .active) (len : keyLenOk s.chan.key.length = true) :
    exec .bindKey s = .next (bindKeyEffect Config.bcBind Config.bcEnc s) := by
  show bindKeyWith Config.bcBind Config.bcEnc s = _
  simp [bindKeyWith, fits, idle, len]

/-- The instruction that starts an operation in a direction (30_encoding.md R73). -/
def startInstr : Direction → Instr
  | .encrypt => .startEnc
  | .decrypt => .startDec

/-- START in KeyBound has its effect (R165). -/
theorem exec_start_of_keyBound (d : Direction) (s : State)
    (fits : s.operandsFit (startInstr d) = true) (bound : s.ctxState = .keyBound) :
    exec (startInstr d) s = .next (startEffect d s) := by
  cases d with
  | encrypt =>
    show execStartEnc s = _
    simp only [startInstr] at fits
    simp [execStartEnc, fits, bound]
  | decrypt =>
    show execStartDec s = _
    simp only [startInstr] at fits
    simp [execStartDec, fits, bound]

/-- UPDATE in Active has its effect under the bound key (R170). -/
theorem exec_update_of_active (s : State) (handle : KeyHandle)
    (fits : s.operandsFit .update = true) (active : s.ctxState = .active)
    (bound : s.kh = some handle) :
    exec .update s = .next (updateEffect (Config.bcEnc handle) s) := by
  show updateWith Config.bcEnc s = _
  simp [updateWith, fits, active, bound]

/-- FINISH in Active, with tag lengths that pass their checks, has its effect (R176). -/
theorem exec_finish_of_active (s : State) (n : Nat) (handle : KeyHandle)
    (fits : s.operandsFit (.finish n) = true) (active : s.ctxState = .active)
    (legal : tagLenOk n = true) (same : s.dir = .decrypt → s.chan.tagin.length = n)
    (bound : s.kh = some handle) :
    exec (.finish n) s = .next (finishEffect (Config.bcEnc handle) n s) := by
  have agree : ¬ (s.dir = .decrypt ∧ s.chan.tagin.length ≠ n) := fun ⟨dec, differ⟩ =>
    differ (same dec)
  show finishWith Config.bcEnc n s = _
  simp only [finishWith, fits, active, legal, if_neg agree, bound]
  rfl

end Sys2Proof.Machine
end

section
/-! PROOFS. A whole operation as one run of the core (00_scope.md R3): BIND_KEY, START, UPDATE for
every chunk, FINISH. Both directions are one theorem, `Message.run`. -/

namespace Sys2Proof.Machine

/-- What the host fixes of an operation before its data: the key, the IV, the AAD, the direction. -/
structure Message where
  key : Bytes
  iv : Bytes
  aad : Bytes
  dir : Direction

/-- The handle of its key (00_scope.md R6). -/
def Message.handle (m : Message) : KeyHandle := Config.bcBind m.key

/-- The block cipher under its key. -/
def Message.enc (m : Message) : Block → Block := Config.bcEnc m.handle

/-- Its hash subkey (10_state.md R24). -/
def Message.subkey (m : Message) : Block := m.enc 0#128

/-- Its initial counter block (42_ctr_keystream.md R142). -/
def Message.j0 (m : Message) : Block := deriveJ0 m.subkey m.iv

/-- Its START. -/
def Message.startLine (m : Message) : AsmLine :=
  match m.dir with
  | .encrypt => .startEnc m.iv m.aad
  | .decrypt => .startDec m.iv m.aad

/-- Its program, with the data in chunks: SEAL or OPEN of 30_encoding.md R81. -/
def Message.lines (m : Message) (chunks : List Bytes) (n : Nat) (tag : Bytes) : List AsmLine :=
  [.bindKey m.key, m.startLine] ++ chunks.map .update ++ [.finish n tag]

/-- What its UPDATEs put out from data byte number `start` on: every chunk combined with the
keystream at its place (42_ctr_keystream.md R145). -/
def Message.outputsFrom (m : Message) (start : Nat) : List Bytes → List Bytes
  | [] => []
  | c :: cs =>
    xorBytes c (keystreamFrom m.enc m.j0 start c.length) :: m.outputsFrom (start + c.length) cs

/-- Its ciphertext (41_ghash.md R127). -/
def Message.ciphertext (m : Message) (chunks : List Bytes) : Bytes :=
  ciphertextOf m.dir chunks.flatten (m.outputsFrom 0 chunks).flatten

/-- Its tag for a ciphertext, in closed form (41_ghash.md R126, 44_tag.md R190, R191). -/
def Message.tag (m : Message) (ct : Bytes) (n : Nat) : Bytes :=
  (bytes16 (m.enc m.j0 ^^^ ghash m.subkey
    (blocks m.aad ++ blocks ct ++ [lengthBlock (bitlen m.aad) (bitlen ct)]))).take n

/-- The response of a command that puts bytes out and no tag. -/
def okWith (dout : Bytes) : Response := ⟨.ok, dout, []⟩

/-- The answer to its FINISH when `tag` is its tag and `supplied` the one the host gives (R176). -/
def Message.answer (m : Message) (tag supplied : Bytes) : Response :=
  match m.dir with
  | .encrypt => ⟨.ok, [], tag⟩
  | .decrypt => if tag = supplied then ⟨.ok, [], []⟩ else ⟨.authenticationFailure, [], []⟩

/-- All its responses but the last. -/
def Message.responses (m : Message) (chunks : List Bytes) : List Response :=
  [okWith [], okWith []] ++ (m.outputsFrom 0 chunks).map okWith

/-- The machine inside the operation, `ct` of its ciphertext absorbed; `origin` is the state it
began in, of which the host's events and the absent operand bound are left. -/
structure Message.Running (m : Message) (origin : State) (ct : Bytes) (s : State) : Prop where
  ctxState : s.ctxState = .active
  kh : s.kh = some m.handle
  h : s.h = m.subkey
  dir : s.dir = m.dir
  j0 : s.j0 = m.j0
  operation : OperationAt m.enc m.aad ct s
  pending : s.pending = origin.pending
  unbounded : s.maxOperandBytes = none

/-- The machine after the operation, which kept the key alone (10_state.md R33, R34). -/
def Message.finalState (m : Message) (origin : State) (supplied : Bytes) (r : Response) : State :=
  { endOperation origin with
    kh := some m.handle
    h := m.subkey
    chan := { Channels.empty with tagin := supplied }
    resp := some r }

/-! ### Its outputs, taken together -/

theorem Message.outputsFrom_flatten (m : Message) (start : Nat) (chunks : List Bytes) :
    (m.outputsFrom start chunks).flatten =
      xorBytes chunks.flatten (keystreamFrom m.enc m.j0 start chunks.flatten.length) := by
  induction chunks generalizing start with
  | nil => rfl
  | cons c cs ih =>
    rw [outputsFrom, List.flatten_cons, List.flatten_cons, ih, List.length_append,
      keystreamFrom_add, xorBytes_append _ _ _ _ (by simp)]

@[simp] theorem Message.outputsFrom_length (m : Message) (start : Nat) (chunks : List Bytes) :
    (m.outputsFrom start chunks).length = chunks.length := by
  induction chunks generalizing start with
  | nil => rfl
  | cons c cs ih => simp [outputsFrom, ih]

@[simp] theorem Message.responses_length (m : Message) (chunks : List Bytes) :
    (m.responses chunks).length = chunks.length + 2 := by
  simp [responses]

/-- Every response but the last is OK. -/
theorem Message.responses_allOk (m : Message) (chunks : List Bytes) :
    allOk (m.responses chunks) = true := by
  simp [allOk, responses, okWith]

theorem allOk_append (rs rs' : List Response) : allOk (rs ++ rs') = (allOk rs && allOk rs') := by
  simp [allOk]

/-- The UPDATEs of the program put out its outputs, whatever the last answer. -/
theorem Message.updateOutputs_responses (m : Message) (chunks : List Bytes) (last : Response) :
    updateOutputs (m.responses chunks ++ [last]) = m.outputsFrom 0 chunks := by
  have middle : (m.responses chunks ++ [last]).drop 2 =
      (m.outputsFrom 0 chunks).map okWith ++ [last] := rfl
  rw [updateOutputs, middle, List.dropLast_concat, List.map_map]
  exact List.map_id _

theorem finalTag_concat (rs : List Response) (last : Response) :
    finalTag (rs ++ [last]) = last.tagout := by
  simp [finalTag]

/-! ### Its commands, one after the other -/

/-- The operands at the port are no register of the operation. -/
theorem Message.running_atPort {m : Message} {origin s : State} {ct : Bytes}
    (run : m.Running origin ct s) (c : Channels) : m.Running origin ct { s with chan := c } where
  ctxState := run.ctxState
  kh := run.kh
  h := run.h
  dir := run.dir
  j0 := run.j0
  operation :=
    let o := run.operation
    ⟨o.fill, o.buffered, o.folded, o.aadBits, o.ctBits, o.position, o.counter, o.keystream⟩
  pending := run.pending
  unbounded := run.unbounded

/-- START under the bound key leaves the operation with no ciphertext (R165). -/
theorem Message.startEffect_running (m : Message) (origin s : State)
    (kh : s.kh = some m.handle) (h : s.h = m.subkey) (iv : s.chan.iv = m.iv)
    (aad : s.chan.aad = m.aad) (pending : s.pending = origin.pending)
    (unbounded : s.maxOperandBytes = none) : m.Running origin [] (startEffect m.dir s) := by
  have operation := startEffect_operationAt m.enc m.dir s
  have j0 : deriveJ0 s.h s.chan.iv = m.j0 := by rw [h, iv]; rfl
  rw [aad] at operation
  refine ⟨?_, ?_, ?_, ?_, ?_, operation, ?_, ?_⟩ <;> rw [startEffect_eq]
  · exact kh
  · exact h
  · exact j0
  · exact pending
  · exact unbounded

/-- START after BIND_KEY begins the operation, from any state outside Active (R161, R165). -/
theorem Message.runLines_begin (m : Message) (s : State) (idle : s.ctxState ≠ .active)
    (unbounded : s.maxOperandBytes = none) (keyLen : keyLenOk m.key.length = true) :
    ∃ t, m.Running s [] t ∧ ∀ ls rs u, runLines ls t = some (rs, u) →
      runLines ([.bindKey m.key, m.startLine] ++ ls) s =
        some ([okWith [], okWith []] ++ rs, u) := by
  let delivered : State := { s with chan := (AsmLine.bindKey m.key).channels }
  let bound : State := bindKeyEffect Config.bcBind Config.bcEnc delivered
  let ready : State := { bound with chan := m.startLine.channels }
  have instr : m.startLine.instr = startInstr m.dir := by
    unfold startLine; cases m.dir <;> rfl
  have wf : m.startLine.instr.wellFormed = true := by
    rw [instr]; cases m.dir <;> rfl
  have iv : m.startLine.channels.iv = m.iv := by
    unfold startLine; cases m.dir <;> rfl
  have aad : m.startLine.channels.aad = m.aad := by
    unfold startLine; cases m.dir <;> rfl
  have binds : exec .bindKey delivered = .next bound :=
    exec_bindKey_of_legal delivered (operandsFit_of_unbounded delivered unbounded _) idle keyLen
  have starts : exec m.startLine.instr ready = .next (startEffect m.dir ready) := by
    rw [instr]
    exact exec_start_of_keyBound m.dir ready (operandsFit_of_unbounded ready unbounded _) rfl
  exact ⟨startEffect m.dir ready, m.startEffect_running s ready rfl rfl iv aad rfl unbounded,
    fun ls rs u rest =>
      runLines_cons_of_ok rfl binds rfl rfl (runLines_cons_of_ok wf starts rfl rfl rest)⟩

/-- One UPDATE inside the operation (R170). -/
theorem Message.running_update (m : Message) (origin s : State) (ct chunk : Bytes)
    (run : m.Running origin ct s) (din : s.chan.din = chunk) :
    ∃ t, exec .update s = .next t ∧
      t.resp = some (okWith (xorBytes chunk (keystreamFrom m.enc m.j0 ct.length chunk.length))) ∧
      m.Running origin (ct ++ ciphertextOf m.dir chunk
        (xorBytes chunk (keystreamFrom m.enc m.j0 ct.length chunk.length))) t := by
  have resp := updateEffect_resp m.enc m.aad ct s run.operation
  have grown := updateEffect_operationAt m.enc m.aad ct s run.operation
  obtain ⟨ctxState, kh, h, dir, j0, -, outside⟩ := updateEffect_frame m.enc s
  rw [run.j0, din] at resp
  rw [run.dir, run.j0, din] at grown
  exact ⟨updateEffect m.enc s,
    exec_update_of_active s m.handle (operandsFit_of_unbounded s run.unbounded _) run.ctxState
      run.kh,
    resp,
    ⟨ctxState.trans run.ctxState, kh.trans run.kh, h.trans run.h, dir.trans run.dir,
      j0.trans run.j0, grown, outside.pending.trans run.pending,
      outside.maxOperandBytes.trans run.unbounded⟩⟩

/-- The UPDATEs of the operation, one for every chunk (R170). -/
theorem Message.runLines_updates (m : Message) (origin s : State) (ct : Bytes)
    (chunks : List Bytes) (run : m.Running origin ct s) :
    ∃ t, m.Running origin
        (ct ++ ciphertextOf m.dir chunks.flatten (m.outputsFrom ct.length chunks).flatten) t ∧
      ∀ ls rs u, runLines ls t = some (rs, u) →
        runLines (chunks.map .update ++ ls) s =
          some ((m.outputsFrom ct.length chunks).map okWith ++ rs, u) := by
  induction chunks generalizing ct s with
  | nil =>
    have none_absorbed : ciphertextOf m.dir [] [] = [] := by cases m.dir <;> rfl
    exact ⟨s, by simpa [outputsFrom, none_absorbed] using run, fun ls rs u rest => rest⟩
  | cons c cs ih =>
    obtain ⟨t, runs, answer, run'⟩ := m.running_update origin _ ct c
      (running_atPort run (AsmLine.update c).channels) rfl
    obtain ⟨u, run'', rest⟩ := ih t _ run'
    have grown := ciphertextOf_length m.dir c
      (xorBytes c (keystreamFrom m.enc m.j0 ct.length c.length)) (xorBytes_length _ _ (by simp))
    rw [List.length_append, grown] at run'' rest
    rw [List.append_assoc, ← ciphertextOf_append] at run''
    exact ⟨u, run'', fun ls rs v ran => runLines_cons_of_ok rfl runs answer rfl (rest ls rs v ran)⟩

/-- FINISH inside the operation answers whether, or which, its tag is (R176). -/
theorem Message.finishEffect_resp (m : Message) (origin s : State) (ct supplied : Bytes) (n : Nat)
    (run : m.Running origin ct s) (tagin : s.chan.tagin = supplied) (legal : tagLenOk n = true)
    (same : m.dir = .decrypt → supplied.length = n) :
    (finishEffect m.enc n s).resp = some (m.answer (m.tag ct n) supplied) := by
  have tag : operationTag m.enc n s = m.tag ct n := by
    rw [operationTag_of_operationAt m.enc m.aad ct n s run.operation, run.j0, run.h]; rfl
  have len : (m.tag ct n).length = n := by
    rw [← tag, operationTag_length m.enc n s ((tagLenOk_iff n).mp legal).2]
  rw [finishEffect_eq, State.respond_resp, tag, tagin, run.dir, answer]
  cases hd : m.dir with
  | encrypt => simp
  | decrypt =>
    have compared := tagEq_iff_eq (m.tag ct n) supplied (len.trans (same hd).symm)
    have differs : tagEq (m.tag ct n) supplied = false ↔ m.tag ct n ≠ supplied := by
      rw [← Bool.not_eq_true, compared]
    simp only [differs]
    by_cases agree : m.tag ct n = supplied <;> simp [agree]

/-- FINISH leaves of the operation its key alone (R176, 10_state.md R33, R34). -/
theorem Message.finishEffect_eq_finalState (m : Message) (origin s : State) (ct supplied : Bytes)
    (n : Nat) (r : Response) (run : m.Running origin ct s)
    (chan : s.chan = { Channels.empty with tagin := supplied })
    (unbounded : origin.maxOperandBytes = none) (resp : (finishEffect m.enc n s).resp = some r) :
    finishEffect m.enc n s = m.finalState origin supplied r := by
  have ends : finishEffect m.enc n s =
      { endOperation s with resp := (finishEffect m.enc n s).resp } := by
    rw [finishEffect_eq]; rfl
  rw [ends, resp]
  simp only [endOperation, State.clearOp, finalState, run.kh, run.h, chan, run.pending,
    run.unbounded, unbounded]

/-- FINISH ends the operation with its answer (R176). -/
theorem Message.runLines_finish (m : Message) (origin s : State) (ct supplied : Bytes) (n : Nat)
    (run : m.Running origin ct s) (unbounded : origin.maxOperandBytes = none)
    (legal : tagLenOk n = true) (same : m.dir = .decrypt → supplied.length = n) :
    runLines [.finish n supplied] s = some ([m.answer (m.tag ct n) supplied],
      m.finalState origin supplied (m.answer (m.tag ct n) supplied)) := by
  let ready : State := { s with chan := (AsmLine.finish n supplied).channels }
  have run' : m.Running origin ct ready := running_atPort run _
  have wf : (AsmLine.finish n supplied).instr.wellFormed = true :=
    decide_eq_true (((tagLenOk_iff n).mp legal).2.trans (by decide))
  have resp := m.finishEffect_resp origin ready ct supplied n run' rfl legal same
  have finishes : exec (.finish n) ready = .next (finishEffect m.enc n ready) :=
    exec_finish_of_active ready n m.handle (operandsFit_of_unbounded ready run'.unbounded _)
      run'.ctxState legal (fun decrypts => same (run'.dir.symm.trans decrypts)) run'.kh
  rw [m.finishEffect_eq_finalState origin ready ct supplied n _ run' rfl unbounded resp]
    at finishes
  exact runLines_last wf finishes rfl

/-- The whole operation, in either direction, from any state outside Active: every response, and
the state it leaves. -/
theorem Message.run (m : Message) (s : State) (chunks : List Bytes) (n : Nat) (supplied : Bytes)
    (idle : s.ctxState ≠ .active) (unbounded : s.maxOperandBytes = none)
    (keyLen : keyLenOk m.key.length = true) (legal : tagLenOk n = true)
    (same : m.dir = .decrypt → supplied.length = n) :
    runLines (m.lines chunks n supplied) s =
      some (m.responses chunks ++ [m.answer (m.tag (m.ciphertext chunks) n) supplied],
        m.finalState s supplied (m.answer (m.tag (m.ciphertext chunks) n) supplied)) := by
  obtain ⟨t, started, begins⟩ := m.runLines_begin s idle unbounded keyLen
  obtain ⟨u, running, updates⟩ := m.runLines_updates s t [] chunks started
  have finish := m.runLines_finish s u _ supplied n running unbounded legal same
  have ran := begins _ _ _ (updates _ _ _ finish)
  rw [lines, responses, List.append_assoc, List.append_assoc]
  exact ran

/-- Settles O55: `Message.run` in the Encrypt direction, whose outputs are the ciphertext. -/
theorem sealComputesGcm : Obligations.SealComputesGcm := by
  intro s key iv aad chunks n handle h j0 ct idle unbounded keyLen legal hhandle hh hj0 hct
  subst hhandle hh hj0
  let m : Message := ⟨key, iv, aad, .encrypt⟩
  have ct_eq : m.ciphertext chunks = ct := (m.outputsFrom_flatten 0 chunks).trans hct.symm
  have ran := m.run s chunks n [] idle unbounded keyLen legal (fun decrypts => by cases decrypts)
  rw [ct_eq] at ran
  refine ⟨_, _, ran, ?_, ?_, ?_, ?_⟩
  · rw [allOk_append, m.responses_allOk]; rfl
  · simp
  · rw [m.updateOutputs_responses]; exact ct_eq
  · rw [finalTag_concat]; rfl

/-- Settles O56: `Message.run` in the Decrypt direction, where the input is the ciphertext and
FINISH compares the tags. -/
theorem openVerifiesGcm : Obligations.OpenVerifiesGcm := by
  intro s key iv aad tag chunks handle h j0 ct expected idle unbounded keyLen legal hhandle hh hj0
    hct hexpected
  subst hhandle hh hj0 hct
  let m : Message := ⟨key, iv, aad, .decrypt⟩
  have tag_eq : m.tag (m.ciphertext chunks) tag.length = expected := hexpected.symm
  have ran := m.run s chunks tag.length tag idle unbounded keyLen legal (fun _ => rfl)
  rw [tag_eq] at ran
  refine ⟨_, _, _, ran, m.responses_allOk chunks, m.responses_length chunks, ?_, rfl, ?_, ?_⟩
  · rw [m.updateOutputs_responses]; exact m.outputsFrom_flatten 0 chunks
  · exact fun agree => if_pos agree.symm
  · exact fun differ => if_neg (Ne.symm differ)

end Sys2Proof.Machine
end

section
/-! PROOFS. What one step can do to the registers, said once: every statement about the registers
along a run is a case analysis on `StepEffect`. -/

namespace Sys2Proof.Machine

/-- What an answered step does to the registers: it keeps them all (the core waits, or the command
is rejected), takes a reset, or has the effect of a command that passed its checks. -/
inductive StepEffect (s : State) : State → Prop
  | kept {t : State} (same : SameRegisters s t) : StepEffect s t
  | reset (cut : Option Command) (rest : List Event)
      (pend : s.pending = .hardwareReset cut :: rest) : StepEffect s (s.takeReset rest)
  | bindKey (c : Command) (rest : List Event) (pend : s.pending = .command c :: rest)
      (word : decode c.word = .ok .bindKey) (idle : s.ctxState ≠ .active)
      (len : keyLenOk c.chan.key.length = true) :
      StepEffect s (bindKeyEffect Config.bcBind Config.bcEnc (s.accept c rest))
  | start (c : Command) (rest : List Event) (d : Direction)
      (pend : s.pending = .command c :: rest) (word : decode c.word = .ok (startInstr d))
      (keyBound : s.ctxState = .keyBound) : StepEffect s (startEffect d (s.accept c rest))
  | update (c : Command) (rest : List Event) (handle : KeyHandle)
      (pend : s.pending = .command c :: rest) (word : decode c.word = .ok .update)
      (active : s.ctxState = .active) (bound : s.kh = some handle) :
      StepEffect s (updateEffect (Config.bcEnc handle) (s.accept c rest))
  | finish (c : Command) (rest : List Event) (handle : KeyHandle) (n : Nat)
      (pend : s.pending = .command c :: rest) (word : decode c.word = .ok (.finish n))
      (active : s.ctxState = .active) (legal : tagLenOk n = true)
      (len : s.dir = .decrypt → c.chan.tagin.length = n) (bound : s.kh = some handle) :
      StepEffect s (finishEffect (Config.bcEnc handle) n (s.accept c rest))

/-- A rejected command writes no register (60_exceptions.md R204). -/
theorem sameRegisters_accept_fail (s : State) (c : Command) (rest : List Event)
    (status : Status) : SameRegisters s ((s.accept c rest).fail status) := by
  constructor <;> rfl

/-- Every answered step is one of `StepEffect`. -/
theorem stepEffect_of_step {s t : State} (run : step s = .next t) : StepEffect s t := by
  obtain ⟨-, rfl⟩ | ⟨cut, rest, pend, rfl⟩ | ⟨c, rest, why, -, -, rfl⟩ |
    ⟨c, rest, i, pend, word, ran⟩ := step_cases run
  · exact .kept (by constructor <;> rfl)
  · exact .reset cut rest pend
  · exact .kept (sameRegisters_accept_fail s c rest _)
  · have rejected (status : Status) : StepEffect s ((s.accept c rest).fail status) :=
      .kept (sameRegisters_accept_fail s c rest status)
    cases i with
    | bindKey =>
      obtain ⟨-, rfl⟩ | ⟨-, -, rfl⟩ | ⟨idle, len, rfl⟩ := execBindKey_cases ran
      · exact rejected _
      · exact rejected _
      · exact .bindKey c rest pend word idle len
    | startEnc =>
      obtain ⟨-, rfl⟩ | ⟨keyBound, rfl⟩ := execStartEnc_cases ran
      · exact rejected _
      · exact .start c rest .encrypt pend word keyBound
    | startDec =>
      obtain ⟨-, rfl⟩ | ⟨keyBound, rfl⟩ := execStartDec_cases ran
      · exact rejected _
      · exact .start c rest .decrypt pend word keyBound
    | update =>
      obtain ⟨-, rfl⟩ | ⟨active, handle, bound, rfl⟩ := execUpdate_cases ran
      · exact rejected _
      · exact .update c rest handle pend word active bound
    | finish n =>
      obtain ⟨-, rfl⟩ | ⟨-, -, rfl⟩ | ⟨active, legal, len, handle, bound, rfl⟩ :=
        execFinish_cases ran
      · exact rejected _
      · exact rejected _
      · exact .finish c rest handle n pend word active legal len bound

/-! ### The fields of the effects -/

@[simp] theorem bindKeyEffect_ctxState (bind : Bytes → KeyHandle)
    (enc : KeyHandle → Block → Block) (s : State) :
    (bindKeyEffect bind enc s).ctxState = .keyBound := rfl

@[simp] theorem startEffect_ctxState (d : Direction) (s : State) :
    (startEffect d s).ctxState = .active := rfl

@[simp] theorem startEffect_kh (d : Direction) (s : State) : (startEffect d s).kh = s.kh := by
  rw [startEffect_eq]

@[simp] theorem startEffect_h (d : Direction) (s : State) : (startEffect d s).h = s.h := by
  rw [startEffect_eq]

@[simp] theorem finishEffect_ctxState (enc : Block → Block) (n : Nat) (s : State) :
    (finishEffect enc n s).ctxState = .finalized := by
  rw [finishEffect_eq]; rfl

@[simp] theorem finishEffect_kh (enc : Block → Block) (n : Nat) (s : State) :
    (finishEffect enc n s).kh = s.kh := by
  rw [finishEffect_eq]; rfl

@[simp] theorem finishEffect_h (enc : Block → Block) (n : Nat) (s : State) :
    (finishEffect enc n s).h = s.h := by
  rw [finishEffect_eq]; rfl

/-! ### Which effects clear the operation registers (10_state.md R33) -/

theorem opCleared_congr {s t : State} (cleared : OpCleared s) (same : SameRegisters s t) :
    OpCleared t where
  dir := same.dir.trans cleared.dir
  j0 := same.j0.trans cleared.j0
  ctr := same.ctr.trans cleared.ctr
  ksBuf := same.ksBuf.trans cleared.ksBuf
  ksPos := same.ksPos.trans cleared.ksPos
  y := same.y.trans cleared.y
  ghBuf := same.ghBuf.trans cleared.ghBuf
  ghFill := same.ghFill.trans cleared.ghFill
  aadBits := same.aadBits.trans cleared.aadBits
  ctBits := same.ctBits.trans cleared.ctBits

theorem takeReset_opCleared (s : State) (rest : List Event) : OpCleared (s.takeReset rest) := by
  constructor <;> rfl

theorem bindKeyEffect_opCleared (bind : Bytes → KeyHandle) (enc : KeyHandle → Block → Block)
    (s : State) : OpCleared (bindKeyEffect bind enc s) := by
  constructor <;> rfl

theorem finishEffect_opCleared (enc : Block → Block) (n : Nat) (s : State) :
    OpCleared (finishEffect enc n s) := by
  rw [finishEffect_eq]; constructor <;> rfl

end Sys2Proof.Machine
end

section
/-! PROOFS. The high 96 bits of the counter and the tail of GH_BUF, which no byte of a chunk
touches (10_state.md R27, R30). -/

namespace Sys2Proof.Machine

/-- `inc32` keeps the high 96 bits (42_ctr_keystream.md R140). -/
theorem inc32_high (v : Block) : (inc32 v).extractLsb' 32 96 = v.extractLsb' 32 96 := by
  simp only [inc32, BitVec.extractLsb'_append_eq_left]

theorem inc32Times_high (n : Nat) (v : Block) :
    (inc32Times n v).extractLsb' 32 96 = v.extractLsb' 32 96 := by
  induction n with
  | zero => rfl
  | succ n ih => exact (inc32_high _).trans ih

/-- KS_BYTE keeps the high 96 bits of CTR (R144). -/
theorem ksByte_ctr_high (enc : Block → Block) (s : State) :
    (ksByte enc s).1.ctr.extractLsb' 32 96 = s.ctr.extractLsb' 32 96 := by
  by_cases spent : s.ksPos = 16
  · rw [ksByte_of_spent enc s spent]; exact inc32_high s.ctr
  · rw [ksByte_of_left enc s spent]

theorem updateByte_ctr_high (enc : Block → Block) (d : Byte) (s : State) :
    (updateByte enc d s).1.ctr.extractLsb' 32 96 = s.ctr.extractLsb' 32 96 := by
  cases hd : s.dir with
  | encrypt => rw [updateByte_encrypt enc d s hd, absorbCtByte_ctr, ksByte_ctr_high]
  | decrypt => rw [updateByte_decrypt enc d s hd, ksByte_ctr_high, absorbCtByte_ctr]

theorem updateBytes_ctr_high (enc : Block → Block) (ds : Bytes) (s : State) :
    (updateBytes enc ds s).1.ctr.extractLsb' 32 96 = s.ctr.extractLsb' 32 96 := by
  induction ds generalizing s with
  | nil => rfl
  | cons d ds ih => rw [updateBytes_cons, ih, updateByte_ctr_high]

/-- UPDATE keeps the high 96 bits of CTR (43_context_commands.md R170). -/
theorem updateEffect_ctr_high (enc : Block → Block) (s : State) :
    (updateEffect enc s).ctr.extractLsb' 32 96 = s.ctr.extractLsb' 32 96 := by
  rw [updateEffect_eq]; exact updateBytes_ctr_high enc s.chan.din s

/-- Only GH_BUF and GH_FILL enter `TailZero`. -/
theorem tailZero_congr {s t : State} (tail : TailZero s) (ghBuf : t.ghBuf = s.ghBuf)
    (ghFill : t.ghFill = s.ghFill) : TailZero t := by
  unfold TailZero; rw [ghBuf, ghFill]; exact tail

theorem ksByte_tailZero (enc : Block → Block) (s : State) (tail : TailZero s) :
    TailZero (ksByte enc s).1 := by
  obtain ⟨-, ghBuf, ghFill⟩ := ksByte_accumulator enc s
  exact tailZero_congr tail ghBuf ghFill

theorem updateByte_tailZero (enc : Block → Block) (d : Byte) (s : State) (tail : TailZero s) :
    TailZero (updateByte enc d s).1 := by
  cases hd : s.dir with
  | encrypt =>
    rw [updateByte_encrypt enc d s hd]
    exact absorbCtByte_tailZero _ _ (ksByte_tailZero enc s tail)
  | decrypt =>
    rw [updateByte_decrypt enc d s hd]
    exact ksByte_tailZero enc _ (absorbCtByte_tailZero d s tail)

theorem updateBytes_tailZero (enc : Block → Block) (ds : Bytes) (s : State) (tail : TailZero s) :
    TailZero (updateBytes enc ds s).1 := by
  induction ds generalizing s with
  | nil => exact tail
  | cons d ds ih => rw [updateBytes_cons]; exact ih _ (updateByte_tailZero enc d s tail)

/-- UPDATE keeps the unused bytes of GH_BUF at 0x00 (R30, 41_ghash.md R123). -/
theorem updateEffect_tailZero (enc : Block → Block) (s : State) (tail : TailZero s) :
    TailZero (updateEffect enc s) := by
  rw [updateEffect_eq]
  exact tailZero_congr (updateBytes_tailZero enc s.chan.din s tail) rfl rfl

theorem startEffect_tailZero (d : Direction) (s : State) : TailZero (startEffect d s) := by
  rw [startEffect_eq]; rfl

theorem opCleared_tailZero {s : State} (cleared : OpCleared s) : TailZero s := by
  unfold TailZero; rw [cleared.ghBuf, cleared.ghFill]; rfl

end Sys2Proof.Machine
end

section
/-! PROOFS. The invariant of the machine (10_state.md section 4): its part about the key, its part
about the operation, and the step lemma. -/

namespace Sys2Proof.Machine

/-- The part of the invariant that speaks of the key: the first three points of `Inv`. -/
structure KeyInv (s : State) : Prop where
  keyBound : s.kh = none ↔ s.ctxState = .uninitialized
  keyFromBind : ∀ handle, s.kh = some handle →
    ∃ key : Bytes, keyLenOk key.length ∧ handle = Config.bcBind key
  subkey : ∀ handle, s.kh = some handle → s.h = Config.bcEnc handle 0#128

theorem keyInv_of_inv {s : State} (inv : Inv s) : KeyInv s :=
  ⟨inv.keyBound, inv.keyFromBind, inv.subkey⟩

/-- What keeps the key, and keeps on the same side of Uninitialized, keeps the key's part. -/
theorem keyInv_congr {s t : State} (inv : KeyInv s) (kh : t.kh = s.kh) (h : t.h = s.h)
    (side : t.ctxState = .uninitialized ↔ s.ctxState = .uninitialized) : KeyInv t where
  keyBound := by rw [kh, side]; exact inv.keyBound
  keyFromBind := by rw [kh]; exact inv.keyFromBind
  subkey := by rw [kh, h]; exact inv.subkey

theorem takeReset_keyInv (s : State) (rest : List Event) : KeyInv (s.takeReset rest) where
  keyBound := by simp
  keyFromBind := fun handle bound => by cases bound
  subkey := fun handle bound => by cases bound

/-- BIND_KEY of a legal key establishes the key's part (R23, R24, 43_context_commands.md R161). -/
theorem bindKeyEffect_keyInv (s : State) (len : keyLenOk s.chan.key.length = true) :
    KeyInv (bindKeyEffect Config.bcBind Config.bcEnc s) where
  keyBound := by constructor <;> intro impossible <;> cases impossible
  keyFromBind := fun handle bound => by cases bound; exact ⟨s.chan.key, len, rfl⟩
  subkey := fun handle bound => by cases bound; rfl

/-- Outside Active the invariant is the key's part and cleared registers (R34). -/
theorem inv_of_opCleared {s : State} (key : KeyInv s) (idle : s.ctxState ≠ .active)
    (cleared : OpCleared s) : Inv s where
  keyBound := key.keyBound
  keyFromBind := key.keyFromBind
  subkey := key.subkey
  cleared := fun _ => cleared
  frozen := by rw [cleared.ctr, cleared.j0]
  operation := fun active => absurd active idle
  tail := opCleared_tailZero cleared

/-- In Active the invariant is the key's part, the operation's registers (R35), which freeze the
high bits of CTR, and the tail of GH_BUF. -/
theorem inv_of_operationAt {s : State} {handle : KeyHandle} {aad ct : Bytes} (key : KeyInv s)
    (active : s.ctxState = .active) (bound : s.kh = some handle)
    (op : OperationAt (Config.bcEnc handle) aad ct s) (tail : TailZero s) : Inv s where
  keyBound := key.keyBound
  keyFromBind := key.keyFromBind
  subkey := key.subkey
  cleared := fun idle => absurd active idle
  frozen := by rw [op.counter, inc32Times_high]
  operation := fun _ other bound' => by
    rw [bound] at bound'; cases bound'; exact ⟨aad, ct, op⟩
  tail := tail

/-- Outside Uninitialized a key is bound (R23). -/
theorem exists_handle_of_keyInv {s : State} (key : KeyInv s)
    (inside : s.ctxState ≠ .uninitialized) : ∃ handle, s.kh = some handle :=
  Option.ne_none_iff_exists'.mp fun unbound => inside (key.keyBound.mp unbound)

theorem operationAt_congr {enc : Block → Block} {aad ct : Bytes} {s t : State}
    (op : OperationAt enc aad ct s) (same : SameRegisters s t) : OperationAt enc aad ct t := by
  obtain ⟨absorbed, stream, aadBits, ctBits⟩ := (operationAt_iff enc aad ct s).mp op
  exact (operationAt_iff enc aad ct t).mpr
    ⟨absorbedAt_congr absorbed same.h same.y same.ghBuf same.ghFill,
      keystreamAt_congr stream same.j0 same.ctr same.ksBuf same.ksPos,
      same.aadBits.trans aadBits, same.ctBits.trans ctBits⟩

/-- The invariant speaks of the registers alone. -/
theorem inv_congr {s t : State} (inv : Inv s) (same : SameRegisters s t) : Inv t := by
  have key : KeyInv t :=
    keyInv_congr (keyInv_of_inv inv) same.kh same.h (by rw [same.ctxState])
  by_cases active : s.ctxState = .active
  · obtain ⟨handle, bound⟩ := exists_handle_of_keyInv (keyInv_of_inv inv) (by simp [active])
    obtain ⟨aad, ct, op⟩ := inv.operation active handle bound
    exact inv_of_operationAt key (same.ctxState.trans active) (same.kh.trans bound)
      (operationAt_congr op same) (tailZero_congr inv.tail same.ghBuf same.ghFill)
  · exact inv_of_opCleared key (by rwa [same.ctxState])
      (opCleared_congr (inv.cleared active) same)

/-- Putting a command at the port writes no register. -/
theorem accept_sameRegisters (s : State) (c : Command) (rest : List Event) :
    SameRegisters s (s.accept c rest) := by
  constructor <;> rfl

/-- START from a state with a bound key (R35, R165). -/
theorem startEffect_inv {s : State} (d : Direction) (inv : Inv s)
    (keyBound : s.ctxState = .keyBound) : Inv (startEffect d s) := by
  obtain ⟨handle, bound⟩ := exists_handle_of_keyInv (keyInv_of_inv inv) (by simp [keyBound])
  have key : KeyInv (startEffect d s) :=
    keyInv_congr (keyInv_of_inv inv) (by simp) (by simp) (by simp [keyBound])
  exact inv_of_operationAt key (by simp) (by simpa using bound)
    (startEffect_operationAt (Config.bcEnc handle) d s) (startEffect_tailZero d s)

/-- UPDATE inside an operation (R35, R170). -/
theorem updateEffect_inv {s : State} {handle : KeyHandle} (inv : Inv s)
    (active : s.ctxState = .active) (bound : s.kh = some handle) :
    Inv (updateEffect (Config.bcEnc handle) s) := by
  obtain ⟨aad, ct, op⟩ := inv.operation active handle bound
  obtain ⟨ctxState, kh, h, -⟩ := updateEffect_frame (Config.bcEnc handle) s
  have key := keyInv_congr (keyInv_of_inv inv) kh h (by rw [ctxState])
  exact inv_of_operationAt key (ctxState.trans active) (kh.trans bound)
    (updateEffect_operationAt _ aad ct s op) (updateEffect_tailZero _ s inv.tail)

/-- FINISH ends an operation and keeps the key (R34, R176). -/
theorem finishEffect_inv {s : State} (enc : Block → Block) (n : Nat) (inv : Inv s)
    (active : s.ctxState = .active) : Inv (finishEffect enc n s) := by
  have key : KeyInv (finishEffect enc n s) :=
    keyInv_congr (keyInv_of_inv inv) (by simp) (by simp) (by simp [active])
  exact inv_of_opCleared key (by simp) (finishEffect_opCleared enc n s)

/-- Settles O31: each effect of a step either clears the operation registers or leaves those of an
operation. -/
theorem stepKeepsTheInvariant : Obligations.StepKeepsTheInvariant := by
  intro s t inv run
  have accepted (c : Command) (rest : List Event) : Inv (s.accept c rest) :=
    inv_congr inv (accept_sameRegisters s c rest)
  cases stepEffect_of_step run with
  | kept same => exact inv_congr inv same
  | reset cut rest =>
    exact inv_of_opCleared (takeReset_keyInv s rest) (by simp) (takeReset_opCleared s rest)
  | bindKey c rest pend word idle len =>
    exact inv_of_opCleared (bindKeyEffect_keyInv _ len) (by simp) (bindKeyEffect_opCleared _ _ _)
  | start c rest d pend word keyBound => exact startEffect_inv d (accepted c rest) keyBound
  | update c rest handle pend word active bound =>
    exact updateEffect_inv (accepted c rest) active bound
  | finish c rest handle n pend word active => exact finishEffect_inv _ n (accepted c rest) active

/-- Settles O32: only START and UPDATE write an operation register without clearing them all, and
both end in Active. -/
theorem clearedOutsideActiveIsKept : Obligations.ClearedOutsideActiveIsKept := by
  intro s t cleared run idle
  cases stepEffect_of_step run with
  | kept same => exact opCleared_congr (cleared (same.ctxState ▸ idle)) same
  | reset cut rest => exact takeReset_opCleared s rest
  | bindKey => exact bindKeyEffect_opCleared _ _ _
  | start c rest d => exact absurd (startEffect_ctxState d _) idle
  | update c rest handle pend word active =>
    exact absurd ((updateEffect_frame _ (s.accept c rest)).1.trans active) idle
  | finish => exact finishEffect_opCleared _ _ _

/-- Settles O37: of the effects that lead from Active to Active only UPDATE's writes registers. -/
theorem operationParametersAreFixed : Obligations.OperationParametersAreFixed := by
  intro s t active active' run
  cases stepEffect_of_step run with
  | kept same =>
    exact ⟨same.dir, same.j0, same.aadBits, same.kh, same.h, by rw [same.ctr]⟩
  | reset => cases active'
  | bindKey => cases active'
  | start c rest d pend word keyBound => rw [active] at keyBound; cases keyBound
  | update c rest handle =>
    obtain ⟨-, kh, h, dir, j0, aadBits, -⟩ :=
      updateEffect_frame (Config.bcEnc handle) (s.accept c rest)
    exact ⟨dir, j0, aadBits, kh, h, updateEffect_ctr_high _ (s.accept c rest)⟩
  | finish => rw [finishEffect_ctxState] at active'; cases active'

/-- The one word of BIND_KEY (30_encoding.md R76). -/
theorem eq_of_decode_bindKey {w : CmdWord} (word : decode w = .ok .bindKey) :
    w = 0x00000001#32 := by
  have opc : w.opc = 0x1 := by
    by_contra other
    simp only [decode, if_neg other] at word
    split_ifs at word <;> simp at word
  have high : w.slice 31 4 = 0 := by
    by_contra nonzero
    simp [decode, opc, nonzero] at word
  simp only [CmdWord.opc, CmdWord.slice, BitVec.extractLsb_toNat, Nat.shiftRight_eq_div_pow]
    at opc high
  refine BitVec.eq_of_toNat_eq ?_
  rw [BitVec.toNat_ofNat]
  omega

/-- Settles O34: every effect but reset's and BIND_KEY's keeps KH and H. -/
theorem onlyBindKeyAndResetWriteTheKey : Obligations.OnlyBindKeyAndResetWriteTheKey := by
  intro s t run changed
  cases stepEffect_of_step run with
  | kept same => exact absurd ⟨same.kh, same.h⟩ changed
  | reset cut rest pend => exact .inl ⟨cut, rest, pend⟩
  | bindKey c rest pend word => exact .inr ⟨c, rest, pend, eq_of_decode_bindKey word, rfl, rfl⟩
  | start => exact absurd (by simp) changed
  | update c rest =>
    obtain ⟨-, kh, h, -⟩ := updateEffect_frame _ (s.accept c rest)
    exact absurd ⟨kh, h⟩ changed
  | finish => exact absurd (by simp) changed

end Sys2Proof.Machine
end

section
/-! PROOFS. No command reads an earlier response (10_state.md R36): every operation of the core
commutes with writing the response. -/

namespace Sys2Proof.Machine

theorem operandsFit_with_resp (s : State) (r : Option Response) (i : Instr) :
    State.operandsFit { s with resp := r } i = s.operandsFit i := by
  cases i <;> rfl

theorem fail_with_resp (s : State) (r : Option Response) (status : Status) :
    State.fail { s with resp := r } status = s.fail status := rfl

theorem ksByte_with_resp (enc : Block → Block) (s : State) (r : Option Response) :
    ksByte enc { s with resp := r } = ({ (ksByte enc s).1 with resp := r }, (ksByte enc s).2) := by
  by_cases spent : s.ksPos = 16
  · rw [ksByte_of_spent enc s spent]; exact ksByte_of_spent enc { s with resp := r } spent
  · rw [ksByte_of_left enc s spent]; exact ksByte_of_left enc { s with resp := r } spent

theorem absorbCtByte_with_resp (c : Byte) (s : State) (r : Option Response) :
    absorbCtByte c { s with resp := r } = { absorbCtByte c s with resp := r } := by
  by_cases room : s.ghFill.val + 1 < 16
  · rw [absorbCtByte_of_room c s room]; exact absorbCtByte_of_room c { s with resp := r } room
  · rw [absorbCtByte_of_full c s room]; exact absorbCtByte_of_full c { s with resp := r } room

theorem updateByte_with_resp (enc : Block → Block) (d : Byte) (s : State) (r : Option Response) :
    updateByte enc d { s with resp := r } =
      ({ (updateByte enc d s).1 with resp := r }, (updateByte enc d s).2) := by
  have either : s.dir = .encrypt ∨ s.dir = .decrypt := by cases s.dir <;> simp
  obtain hd | hd := either
  · rw [updateByte_encrypt enc d s hd, updateByte_encrypt enc d { s with resp := r } hd,
      ksByte_with_resp, absorbCtByte_with_resp]
  · rw [updateByte_decrypt enc d s hd, updateByte_decrypt enc d { s with resp := r } hd,
      absorbCtByte_with_resp, ksByte_with_resp]

theorem updateBytes_with_resp (enc : Block → Block) (ds : Bytes) (s : State)
    (r : Option Response) :
    updateBytes enc ds { s with resp := r } =
      ({ (updateBytes enc ds s).1 with resp := r }, (updateBytes enc ds s).2) := by
  induction ds generalizing s with
  | nil => rfl
  | cons d ds ih => simp only [updateBytes_cons, updateByte_with_resp, ih]

theorem finalize_with_resp (s : State) (r : Option Response) :
    finalize { s with resp := r } = { finalize s with resp := r } := by
  by_cases empty : s.ghFill = 0
  · rw [finalize_of_empty s empty]; exact finalize_of_empty { s with resp := r } empty
  · rw [finalize_of_partial s empty]; exact finalize_of_partial { s with resp := r } empty

theorem operationTag_with_resp (enc : Block → Block) (n : Nat) (s : State)
    (r : Option Response) :
    operationTag enc n { s with resp := r } = operationTag enc n s := by
  simp only [operationTag, finalize_with_resp]

/-! ### The effects write the response they leave -/

theorem startEffect_with_resp (d : Direction) (s : State) (r : Option Response) :
    startEffect d { s with resp := r } = startEffect d s := by
  simp only [startEffect_eq]

theorem updateEffect_with_resp (enc : Block → Block) (s : State) (r : Option Response) :
    updateEffect enc { s with resp := r } = updateEffect enc s := by
  simp only [updateEffect_eq, updateBytes_with_resp]

theorem finishEffect_with_resp (enc : Block → Block) (n : Nat) (s : State)
    (r : Option Response) :
    finishEffect enc n { s with resp := r } = finishEffect enc n s := by
  simp only [finishEffect_eq, operationTag_with_resp]; rfl

/-- Settles O40: no check reads the response, and every effect and every rejection replaces it. -/
theorem earlierResponseIsNotRead : Obligations.EarlierResponseIsNotRead := by
  intro i s r
  have fits := operandsFit_with_resp s r
  cases i with
  | bindKey => rfl
  | startEnc =>
    show execStartEnc _ = execStartEnc s
    simp only [execStartEnc, fits, fail_with_resp, startEffect_with_resp]
  | startDec =>
    show execStartDec _ = execStartDec s
    simp only [execStartDec, fits, fail_with_resp, startEffect_with_resp]
  | update =>
    show updateWith _ _ = updateWith _ s
    simp only [updateWith, fits, fail_with_resp, updateEffect_with_resp]
  | finish n =>
    show finishWith _ n _ = finishWith _ n s
    simp only [finishWith, fits, fail_with_resp, finishEffect_with_resp]

end Sys2Proof.Machine
end

section
/-! PROOFS. Where the core waits (70_reset_and_hazards.md R232, log 3) and where the model stops
with a fault (log 9). -/

namespace Sys2Proof.Machine

/-- Settles O3: `step` takes an event only where there is one. -/
theorem waitsWithNothingAtThePort : Obligations.WaitsWithNothingAtThePort := by
  intro s idle
  simp only [step, idle]

/-- UPDATE in Active without a key stops (log 9). -/
theorem exec_update_of_unbound (s : State) (fits : s.operandsFit .update = true)
    (active : s.ctxState = .active) (unbound : s.kh = none) :
    exec .update s = .fault .noKeyHandle := by
  show updateWith Config.bcEnc s = _
  simp [updateWith, fits, active, unbound]

/-- FINISH in Active without a key, with tag lengths that pass their checks, stops (log 9). -/
theorem exec_finish_of_unbound (s : State) (n : Nat) (fits : s.operandsFit (.finish n) = true)
    (active : s.ctxState = .active) (legal : tagLenOk n = true)
    (same : s.dir = .decrypt → s.chan.tagin.length = n) (unbound : s.kh = none) :
    exec (.finish n) s = .fault .noKeyHandle := by
  have agree : ¬ (s.dir = .decrypt ∧ s.chan.tagin.length ≠ n) := fun ⟨dec, differ⟩ =>
    differ (same dec)
  show finishWith Config.bcEnc n s = _
  simp only [finishWith, fits, active, legal, if_neg agree, unbound]
  rfl

/-- Settles O22: the checks pass, and then there is no handle to encrypt under. -/
theorem activeWithoutAKeyStops : Obligations.ActiveWithoutAKeyStops := by
  intro s active unbound
  refine ⟨fun fits => exec_update_of_unbound s fits active unbound, ?_⟩
  intro n fits low high same
  exact exec_finish_of_unbound s n fits active ((tagLenOk_iff n).mpr ⟨low, high⟩) same unbound

end Sys2Proof.Machine
end

section
/-! PROOFS. The operands of a command and its outcome (20_memory.md R51, R56): which commands are
refused over the bound, and that the others are answered. -/

namespace Sys2Proof.Machine

/-- An operand over the bound does not fit (R51). -/
theorem fits_of_bound_lt {s : State} {bound : Nat} {b : Bytes}
    (limit : s.maxOperandBytes = some bound) (long : bound < b.length) : s.fits b = false := by
  cases b with
  | nil => simp at long
  | cons x xs => simpa [State.fits, limit] using long

/-- One operand that does not fit is enough (R51). -/
theorem operandsFit_of_mem {i : Instr} {s : State} {b : Bytes} (read : b ∈ operandsOf i s)
    (long : s.fits b = false) : s.operandsFit i = false :=
  List.all_eq_false.mpr ⟨b, read, by simp [long]⟩

/-- The bound is the first check of every command (log 6). -/
theorem exec_of_not_fits (i : Instr) (s : State) (long : s.operandsFit i = false) :
    exec i s = .refused .operandTooLong := by
  cases i with
  | bindKey => simp [exec, execBindKey, bindKeyWith, long]
  | startEnc => simp [exec, execStartEnc, long]
  | startDec => simp [exec, execStartDec, long]
  | update => simp [exec, execUpdate, updateWith, long]
  | finish n => simp [exec, execFinish, finishWith, long]

/-- Settles O7: such an operand does not fit, and the bound is the first check. -/
theorem operandOverTheBoundRefused : Obligations.OperandOverTheBoundRefused := by
  intro i s bound b limit read long
  exact exec_of_not_fits i s (operandsFit_of_mem read (fits_of_bound_lt limit long))

/-! ### Every command whose operands fit is answered -/

/-- A command whose operands fit is answered, provided a key is bound wherever the context is
Active: only there does a command ask for the handle (R56, log 9). -/
theorem exec_answers (i : Instr) (s : State)
    (bound : s.ctxState = .active → ∃ handle, s.kh = some handle)
    (fits : s.operandsFit i = true) : ∃ t, exec i s = .next t := by
  cases i with
  | bindKey =>
    show ∃ t, bindKeyWith Config.bcBind Config.bcEnc s = .next t
    simp only [bindKeyWith, fits, Bool.not_true, Bool.false_eq_true, if_false]
    split_ifs <;> exact ⟨_, rfl⟩
  | startEnc =>
    show ∃ t, execStartEnc s = .next t
    by_cases keyBound : s.ctxState = .keyBound <;> simp [execStartEnc, fits, keyBound]
  | startDec =>
    show ∃ t, execStartDec s = .next t
    by_cases keyBound : s.ctxState = .keyBound <;> simp [execStartDec, fits, keyBound]
  | update =>
    by_cases active : s.ctxState = .active
    · obtain ⟨handle, kh⟩ := bound active
      exact ⟨_, exec_update_of_active s handle fits active kh⟩
    · show ∃ t, updateWith Config.bcEnc s = .next t
      simp [updateWith, fits, active]
  | finish n =>
    show ∃ t, finishWith Config.bcEnc n s = .next t
    by_cases active : s.ctxState = .active
    · obtain ⟨handle, kh⟩ := bound active
      simp only [finishWith, fits, kh, Bool.not_true, Bool.false_eq_true, if_false]
      split_ifs <;> exact ⟨_, rfl⟩
    · simp [finishWith, fits, active]

/-- No command faults where a key is bound whenever the context is Active (R56). -/
theorem exec_ne_fault (i : Instr) (s : State)
    (bound : s.ctxState = .active → ∃ handle, s.kh = some handle) (f : Fault) :
    exec i s ≠ .fault f := by
  cases fits : s.operandsFit i with
  | false => simp [exec_of_not_fits i s fits]
  | true =>
    obtain ⟨t, answered⟩ := exec_answers i s bound fits
    simp [answered]

/-- Settles O33: the invariant binds a key in Active, so a decoded command is answered or refused
for its operands, and every other event but overlapping commands has its next state. -/
theorem everyEventIsAnswered : Obligations.EveryEventIsAnswered := by
  intro s inv
  have bound : s.ctxState = .active → ∃ handle, s.kh = some handle := fun active =>
    exists_handle_of_keyInv (keyInv_of_inv inv) (by simp [active])
  cases pend : s.pending with
  | nil =>
    have run : step s = .next s := by simp only [step, pend]
    exact ⟨by simp [run], fun _ _ => ⟨s, run⟩⟩
  | cons event rest =>
    cases event with
    | command c =>
      have run : step s = runWord c.word (s.accept c rest) := by simp only [step, pend]
      rw [run, runWord]
      cases word : decode c.word with
      | error why => simp
      | ok i =>
        exact ⟨exec_ne_fault i (s.accept c rest) bound, fun _ fits =>
          exec_answers i (s.accept c rest) bound (fits c rest i rfl word)⟩
    | hardwareReset cut =>
      have run : step s = .next (s.takeReset rest) := by simp only [step, pend]
      exact ⟨by simp [run], fun _ _ => ⟨_, run⟩⟩
    | overlapping first second =>
      have run : step s = .refused .overlappingCommands := by simp only [step, pend]
      exact ⟨by simp [run], fun alone _ => absurd rfl (alone first second rest)⟩

end Sys2Proof.Machine
end

section
/-! PROOFS. The operand channels (20_memory.md R51, R52, 30_encoding.md R79): no command writes one,
and none reads one it does not use. -/

namespace Sys2Proof.Machine

theorem fail_sameOutside (s : State) (status : Status) : SameOutside s (s.fail status) :=
  ⟨rfl, rfl, rfl⟩

theorem bindKeyEffect_sameOutside (bind : Bytes → KeyHandle) (enc : KeyHandle → Block → Block)
    (s : State) : SameOutside s (bindKeyEffect bind enc s) := ⟨rfl, rfl, rfl⟩

theorem startEffect_sameOutside (d : Direction) (s : State) :
    SameOutside s (startEffect d s) := by
  rw [startEffect_eq]; exact ⟨rfl, rfl, rfl⟩

theorem updateEffect_sameOutside (enc : Block → Block) (s : State) :
    SameOutside s (updateEffect enc s) := by
  obtain ⟨-, -, -, -, -, -, outside⟩ := updateEffect_frame enc s
  exact outside

theorem finishEffect_sameOutside (enc : Block → Block) (n : Nat) (s : State) :
    SameOutside s (finishEffect enc n s) := by
  rw [finishEffect_eq]; exact ⟨rfl, rfl, rfl⟩

/-- Settles O38: every rejection and every effect keeps what is outside the registers. -/
theorem noCommandModifiesItsOperands : Obligations.NoCommandModifiesItsOperands := by
  intro i s t run
  cases i with
  | bindKey =>
    obtain ⟨-, rfl⟩ | ⟨-, -, rfl⟩ | ⟨-, -, rfl⟩ := execBindKey_cases run
    · exact fail_sameOutside s _
    · exact fail_sameOutside s _
    · exact bindKeyEffect_sameOutside _ _ s
  | startEnc =>
    obtain ⟨-, rfl⟩ | ⟨-, rfl⟩ := execStartEnc_cases run
    · exact fail_sameOutside s _
    · exact startEffect_sameOutside _ s
  | startDec =>
    obtain ⟨-, rfl⟩ | ⟨-, rfl⟩ := execStartDec_cases run
    · exact fail_sameOutside s _
    · exact startEffect_sameOutside _ s
  | update =>
    obtain ⟨-, rfl⟩ | ⟨-, handle, -, rfl⟩ := execUpdate_cases run
    · exact fail_sameOutside s _
    · exact updateEffect_sameOutside _ s
  | finish n =>
    obtain ⟨-, rfl⟩ | ⟨-, -, rfl⟩ | ⟨-, -, -, handle, -, rfl⟩ := execFinish_cases run
    · exact fail_sameOutside s _
    · exact fail_sameOutside s _
    · exact finishEffect_sameOutside _ n s

/-! ### The operations of the core work on the registers alone -/

/-- The registers of one state beside the port of another. -/
def State.withPortOf (s p : State) : State :=
  { s with
    chan := p.chan, resp := p.resp, pending := p.pending, maxOperandBytes := p.maxOperandBytes }

theorem with_chan_eq_withPortOf (s : State) (other : Channels) :
    { s with chan := other } = s.withPortOf { s with chan := other } := rfl

theorem ksByte_withPortOf (enc : Block → Block) (s p : State) :
    ksByte enc (s.withPortOf p) = ((ksByte enc s).1.withPortOf p, (ksByte enc s).2) := by
  by_cases spent : s.ksPos = 16
  · rw [ksByte_of_spent enc s spent]; exact ksByte_of_spent enc (s.withPortOf p) spent
  · rw [ksByte_of_left enc s spent]; exact ksByte_of_left enc (s.withPortOf p) spent

theorem absorbCtByte_withPortOf (c : Byte) (s p : State) :
    absorbCtByte c (s.withPortOf p) = (absorbCtByte c s).withPortOf p := by
  by_cases room : s.ghFill.val + 1 < 16
  · rw [absorbCtByte_of_room c s room]; exact absorbCtByte_of_room c (s.withPortOf p) room
  · rw [absorbCtByte_of_full c s room]; exact absorbCtByte_of_full c (s.withPortOf p) room

theorem updateByte_withPortOf (enc : Block → Block) (d : Byte) (s p : State) :
    updateByte enc d (s.withPortOf p) =
      ((updateByte enc d s).1.withPortOf p, (updateByte enc d s).2) := by
  cases hd : s.dir with
  | encrypt =>
    rw [updateByte_encrypt enc d s hd, updateByte_encrypt enc d (s.withPortOf p) hd,
      ksByte_withPortOf, absorbCtByte_withPortOf]
  | decrypt =>
    rw [updateByte_decrypt enc d s hd, updateByte_decrypt enc d (s.withPortOf p) hd,
      absorbCtByte_withPortOf, ksByte_withPortOf]

theorem updateBytes_withPortOf (enc : Block → Block) (ds : Bytes) (s p : State) :
    updateBytes enc ds (s.withPortOf p) =
      ((updateBytes enc ds s).1.withPortOf p, (updateBytes enc ds s).2) := by
  induction ds generalizing s with
  | nil => rfl
  | cons d ds ih => simp only [updateBytes_cons, updateByte_withPortOf, ih]

theorem finalize_withPortOf (s p : State) :
    finalize (s.withPortOf p) = (finalize s).withPortOf p := by
  by_cases empty : s.ghFill = 0
  · rw [finalize_of_empty s empty]; exact finalize_of_empty (s.withPortOf p) empty
  · rw [finalize_of_partial s empty]; exact finalize_of_partial (s.withPortOf p) empty

theorem operationTag_withPortOf (enc : Block → Block) (n : Nat) (s p : State) :
    operationTag enc n (s.withPortOf p) = operationTag enc n s := by
  simp only [operationTag, finalize_withPortOf]; rfl

/-! ### The effects read the channels of their command alone -/

theorem bindKeyEffect_with_chan (bind : Bytes → KeyHandle) (enc : KeyHandle → Block → Block)
    (s : State) (other : Channels) (key : other.key = s.chan.key) :
    bindKeyEffect bind enc { s with chan := other } =
      { bindKeyEffect bind enc s with chan := other } := by
  simp only [bindKeyEffect, key]; rfl

theorem startEffect_with_chan (d : Direction) (s : State) (other : Channels)
    (iv : other.iv = s.chan.iv) (aad : other.aad = s.chan.aad) :
    startEffect d { s with chan := other } = { startEffect d s with chan := other } := by
  simp only [startEffect_eq, iv, aad]

theorem updateEffect_with_chan (enc : Block → Block) (s : State) (other : Channels)
    (din : other.din = s.chan.din) :
    updateEffect enc { s with chan := other } = { updateEffect enc s with chan := other } := by
  have loop := updateBytes_withPortOf enc s.chan.din s { s with chan := other }
  have frame := updateBytes_streamFrame enc s.chan.din s
  rw [← with_chan_eq_withPortOf] at loop
  simp only [updateEffect_eq, din, loop, State.withPortOf, frame.pending, frame.maxOperandBytes]

theorem finishEffect_with_chan (enc : Block → Block) (n : Nat) (s : State) (other : Channels)
    (tagin : s.dir = .decrypt → other.tagin = s.chan.tagin) :
    finishEffect enc n { s with chan := other } =
      { finishEffect enc n s with chan := other } := by
  have tag := operationTag_withPortOf enc n s { s with chan := other }
  rw [← with_chan_eq_withPortOf] at tag
  simp only [finishEffect_eq, tag]
  cases hd : s.dir with
  | encrypt => rfl
  | decrypt => rw [tagin hd]; rfl

/-! ### Commands read no other channel -/

/-- An outcome whose next state, if it has one, is changed by `f`. -/
def mapNext (f : State → State) :
    Host.Outcome State Fault Refusal → Host.Outcome State Fault Refusal
  | .next t => .next (f t)
  | .fault r => .fault r
  | .refused r => .refused r

theorem operandsFit_with_chan (i : Instr) (s : State) (other : Channels)
    (same : operandsOf i { s with chan := other } = operandsOf i s) :
    State.operandsFit { s with chan := other } i = s.operandsFit i := by
  simp only [State.operandsFit, same]; rfl

/-- With the channels it reads as they were, a command has the same outcome, a stop included, but
for the channels (R51, R79). -/
theorem exec_with_chan (i : Instr) (s : State) (other : Channels)
    (same : operandsOf i { s with chan := other } = operandsOf i s) :
    exec i { s with chan := other } = mapNext (fun t => { t with chan := other }) (exec i s) := by
  have fits := operandsFit_with_chan i s other same
  cases i with
  | bindKey =>
    have key : other.key = s.chan.key := by simpa [operandsOf] using same
    show bindKeyWith _ _ _ = mapNext _ (bindKeyWith _ _ s)
    simp only [bindKeyWith, fits, key, bindKeyEffect_with_chan _ _ s other key]
    split_ifs <;> rfl
  | startEnc =>
    obtain ⟨iv, aad⟩ : other.iv = s.chan.iv ∧ other.aad = s.chan.aad := by
      simpa [operandsOf] using same
    show execStartEnc _ = mapNext _ (execStartEnc s)
    simp only [execStartEnc, fits, startEffect_with_chan _ s other iv aad]
    split_ifs <;> rfl
  | startDec =>
    obtain ⟨iv, aad⟩ : other.iv = s.chan.iv ∧ other.aad = s.chan.aad := by
      simpa [operandsOf] using same
    show execStartDec _ = mapNext _ (execStartDec s)
    simp only [execStartDec, fits, startEffect_with_chan _ s other iv aad]
    split_ifs <;> rfl
  | update =>
    have din : other.din = s.chan.din := by simpa [operandsOf] using same
    show updateWith _ _ = mapNext _ (updateWith _ s)
    simp only [updateWith, fits, updateEffect_with_chan _ s other din]
    split_ifs
    · rfl
    · rfl
    · cases s.kh <;> rfl
  | finish n =>
    have tagin : s.dir = .decrypt → other.tagin = s.chan.tagin := fun hd => by
      simpa [operandsOf, hd] using same
    have length : (s.dir = .decrypt ∧ other.tagin.length ≠ n) ↔
        (s.dir = .decrypt ∧ s.chan.tagin.length ≠ n) :=
      and_congr_right fun hd => by rw [tagin hd]
    show finishWith _ n _ = mapNext _ (finishWith _ n s)
    simp only [finishWith, fits, length, finishEffect_with_chan _ n s other tagin]
    split_ifs
    · rfl
    · rfl
    · rfl
    · rfl
    · cases s.kh <;> rfl

/-- Settles O39: the answered outcomes among those of `exec_with_chan`. -/
theorem unusedChannelsAreNotRead : Obligations.UnusedChannelsAreNotRead := by
  intro i s t other same run
  rw [exec_with_chan i s other same, run, mapNext]

end Sys2Proof.Machine
end

section
/-! PROOFS. The decoder and the encoder (30_encoding.md R71, R76, R80, R82): the legal words are the
encodings of the well-formed instructions and no others. -/

namespace Sys2Proof.Machine

/-! ### From a word to its instruction -/

/-- A field of the command word, as arithmetic on the word's number (00_scope.md R9). -/
theorem slice_eq_div_mod (w : CmdWord) (hi lo : Nat) :
    w.slice hi lo = w.toNat / 2 ^ lo % 2 ^ (hi - lo + 1) := by
  rw [CmdWord.slice, BitVec.extractLsb_toNat, Nat.shiftRight_eq_div_pow]

/-- The legal cases of R76: what the fields of a word are where it decodes to an instruction. -/
theorem decode_cases {w : CmdWord} {i : Instr} (word : decode w = .ok i) :
    (w.opc = 1 ∧ w.slice 31 4 = 0 ∧ i = .bindKey) ∨
    (w.opc = 2 ∧ w.slice 31 5 = 0 ∧ w.dir = 0 ∧ i = .startEnc) ∨
    (w.opc = 2 ∧ w.slice 31 5 = 0 ∧ w.dir ≠ 0 ∧ i = .startDec) ∨
    (w.opc = 3 ∧ w.slice 31 4 = 0 ∧ i = .update) ∨
    (w.opc = 4 ∧ w.slice 31 13 = 0 ∧ w.slice 7 4 = 0 ∧ i = .finish w.tagLen) := by
  simp only [decode] at word
  split at word
  · split at word <;> cases word
    exact .inl ⟨‹_›, ‹_›, rfl⟩
  split at word
  · split at word <;> cases word
    by_cases dir : w.dir = 0
    · exact .inr (.inl ⟨‹_›, ‹_›, dir, if_pos dir⟩)
    · exact .inr (.inr (.inl ⟨‹_›, ‹_›, dir, if_neg dir⟩))
  split at word
  · split at word <;> cases word
    exact .inr (.inr (.inr (.inl ⟨‹_›, ‹_›, rfl⟩)))
  split at word
  · split at word <;> cases word
    obtain ⟨rsv1, low⟩ := ‹w.slice 31 13 = 0 ∧ w.slice 7 4 = 0›
    exact .inr (.inr (.inr (.inr ⟨‹_›, rsv1, low, rfl⟩)))
  · cases word

/-- The number of FINISH's word (R76): TAGLEN stands above the byte with the OPC (R71, R74). -/
theorem encode_finish (n : Nat) (bound : n ≤ 31) :
    encode (.finish n) = BitVec.ofNat 32 (4 + n * 256) := by
  have word : (encode (.finish n)).toNat = 4 ||| n <<< 8 := by
    have small : n * 256 % 2 ^ 32 = n * 256 := Nat.mod_eq_of_lt (by omega)
    simpa [encode, Nat.shiftLeft_eq] using congrArg (4 ||| ·) small
  refine BitVec.eq_of_toNat_eq ?_
  rw [word, Nat.or_comm, ← Nat.shiftLeft_add_eq_or_of_lt (by decide), Nat.shiftLeft_eq,
    BitVec.toNat_ofNat]
  omega

/-- A word that decodes carries a tag length of five bits (R74). -/
theorem wellFormed_of_decode {w : CmdWord} {i : Instr} (word : decode w = .ok i) :
    i.wellFormed = true := by
  obtain ⟨-, -, rfl⟩ | ⟨-, -, -, rfl⟩ | ⟨-, -, -, rfl⟩ | ⟨-, -, rfl⟩ | ⟨-, -, -, rfl⟩ :=
    decode_cases word
  · rfl
  · rfl
  · rfl
  · rfl
  · have bound : w.tagLen < 2 ^ 5 := by
      rw [CmdWord.tagLen, slice_eq_div_mod]
      exact Nat.mod_lt _ (by decide)
    exact decide_eq_true (by omega)

/-- A word that decodes is the encoding of its instruction: the fields of `decode_cases` leave no
bit of the word free. -/
theorem eq_encode_of_decode {w : CmdWord} {i : Instr} (word : decode w = .ok i) :
    w = encode i := by
  have wf := wellFormed_of_decode word
  have size : w.toNat < 2 ^ 32 := w.isLt
  have fields := decode_cases word
  simp only [CmdWord.opc, CmdWord.dir, CmdWord.tagLen, slice_eq_div_mod] at fields
  refine BitVec.eq_of_toNat_eq ?_
  obtain ⟨opc, high, rfl⟩ | ⟨opc, high, dir, rfl⟩ | ⟨opc, high, dir, rfl⟩ | ⟨opc, high, rfl⟩ |
    ⟨opc, rsv1, low, rfl⟩ := fields
  · simp only [encode, BitVec.toNat_ofNat]; omega
  · simp only [encode, BitVec.toNat_ofNat]; omega
  · simp only [encode, BitVec.toNat_ofNat]; omega
  · simp only [encode, BitVec.toNat_ofNat]; omega
  · rw [encode_finish _ (of_decide_eq_true wf), BitVec.toNat_ofNat]; omega

/-- Settles O8: `eq_encode_of_decode` one way, `decode_encode` the other. -/
theorem decodeIsInverseOfEncode : Obligations.DecodeIsInverseOfEncode := by
  intro w i
  constructor
  · intro word
    exact ⟨wellFormed_of_decode word, eq_encode_of_decode word⟩
  · rintro ⟨wf, rfl⟩
    exact decode_encode i wf

/-- Settles O9: the encodings of the well-formed instructions, written out. -/
theorem legalWordsAreTheListedOnes : Obligations.LegalWordsAreTheListedOnes := by
  intro w i
  rw [decodeIsInverseOfEncode w i]
  cases i with
  | bindKey => simp [Instr.wellFormed, encode]
  | startEnc => simp [Instr.wellFormed, encode]
  | startDec => simp [Instr.wellFormed, encode]
  | update => simp [Instr.wellFormed, encode]
  | finish n =>
    have form : ((Instr.finish n).wellFormed = true ∧ w = encode (.finish n)) ↔
        (n ≤ 31 ∧ w = BitVec.ofNat 32 (4 + n * 256)) := by
      rw [Instr.wellFormed, decide_eq_true_iff]
      exact and_congr_right fun bound => by rw [encode_finish n bound]
    simp [form]

/-- A word answered with a reason decodes to no instruction (R77). -/
theorem decode_ne_ok_of_error {w : CmdWord} {why : Illegal} (word : decode w = .error why)
    (i : Instr) : decode w ≠ .ok i := by
  simp [word]

/-- A word that is the encoding of no well-formed instruction is ILLEGAL (R76). -/
theorem exists_error_of_no_encoding {w : CmdWord}
    (noEncoding : ∀ i : Instr, i.wellFormed = true → w ≠ encode i) : ∃ why, decode w = .error why := by
  cases word : decode w with
  | error why => exact ⟨why, rfl⟩
  | ok i => exact absurd (eq_encode_of_decode word) (noEncoding i (wellFormed_of_decode word))

/-- Settles O10: legal words by `decode_encode`, illegal ones by the field that makes them so. -/
theorem encodingExamples : Obligations.EncodingExamples :=
  ⟨rfl, decode_encode .bindKey rfl, rfl, decode_encode .startDec rfl,
    rfl, decode_encode (.finish 16) rfl, rfl, decode_encode (.finish 12) rfl,
    rfl, decode_encode (.finish 3) rfl, decode_encode .startEnc rfl, decode_encode .update rfl,
    decode_ne_ok_of_error (why := .nonzeroRsv0) (by decide),
    decode_ne_ok_of_error (why := .nonzeroDir) (by decide),
    decode_ne_ok_of_error (why := .reservedOpcode) (by decide)⟩

/-! ### Lines -/

/-- What a line that assembles gives (R80). -/
theorem assemble_eq_some_iff (l : AsmLine) (c : Command) :
    assemble l = some c ↔ l.instr.wellFormed = true ∧ c = ⟨encode l.instr, l.channels⟩ := by
  rw [assemble]
  split
  · simp [‹l.instr.wellFormed = true›, eq_comm]
  · simp [‹¬ l.instr.wellFormed = true›]

/-- A line does not assemble exactly where its instruction is not well-formed (R80). -/
theorem assemble_eq_none_iff (l : AsmLine) : assemble l = none ↔ l.instr.wellFormed = false := by
  simp [assemble]

/-- Settles O12: only a FINISH can fail to be well-formed. -/
theorem assembledLineDecodesBack : Obligations.AssembledLineDecodesBack := by
  intro l
  constructor
  · intro c assembled
    obtain ⟨wf, rfl⟩ := (assemble_eq_some_iff l c).mp assembled
    exact ⟨decode_encode l.instr wf, rfl⟩
  · rw [assemble_eq_none_iff]
    cases l with
    | bindKey key => simp [AsmLine.instr, Instr.wellFormed]
    | startEnc iv aad => simp [AsmLine.instr, Instr.wellFormed]
    | startDec iv aad => simp [AsmLine.instr, Instr.wellFormed]
    | update din => simp [AsmLine.instr, Instr.wellFormed]
    | finish n tag => simp [AsmLine.instr, Instr.wellFormed]

end Sys2Proof.Machine
end

section
/-! PROOFS. A word at the port (30_encoding.md R70, R77, R78): a step decodes it and runs its
instruction, or answers IllegalCommand. -/

namespace Sys2Proof.Machine

/-- With a command at the port the step is the core's answer to its word (R70). -/
theorem step_of_command {s : State} {c : Command} {rest : List Event}
    (pend : s.pending = .command c :: rest) : step s = runWord c.word (s.accept c rest) := by
  simp only [step, pend]

/-- A legal word runs its instruction (R76). -/
theorem runWord_of_ok {w : CmdWord} {i : Instr} (s : State) (word : decode w = .ok i) :
    runWord w s = exec i s := by
  simp only [runWord, word]

/-- An ILLEGAL word is answered with IllegalCommand (R77). -/
theorem runWord_of_error {w : CmdWord} {why : Illegal} (s : State)
    (word : decode w = .error why) : runWord w s = .next (s.fail .illegalCommand) := by
  simp only [runWord, word]; rfl

/-- Settles O5: the command is at the port, and its word is legal. -/
theorem stepRunsDecodedInstruction : Obligations.StepRunsDecodedInstruction := by
  intro s c rest i pend word
  exact (step_of_command pend).trans (runWord_of_ok _ word)

/-- A table word reads as an instruction exactly where its command word decodes to it. -/
theorem decodeTableWord_eq_some_iff (nbits w : Nat) (i : Instr) :
    decodeTableWord nbits w = some i ↔ decode (tableWord nbits w) = .ok i := by
  rw [decodeTableWord]
  cases decode (tableWord nbits w) <;> simp

/-- Settles O6: issuing the word leaves the channels as they stand at the port. -/
theorem issuedTableWordRuns : Obligations.IssuedTableWordRuns := by
  intro s nbits w i read
  exact step_queueCommand_of_decode s ((decodeTableWord_eq_some_iff nbits w i).mp read)

/-- Settles O11: the word does not decode, and the step fails with IllegalCommand. -/
theorem illegalWordAnswered : Obligations.IllegalWordAnswered := by
  intro s c rest pend noEncoding
  obtain ⟨why, word⟩ := exists_error_of_no_encoding noEncoding
  exact (step_of_command pend).trans (runWord_of_error _ word)

end Sys2Proof.Machine
end

section
/-! PROOFS. The result channels (30_encoding.md R72): what a command puts out, said once. -/

namespace Sys2Proof.Machine

/-- What a command can answer: a rejection or a failed comparison with nothing put out, an OK with
nothing put out, the chunk of an UPDATE (43_context_commands.md R170), or the tag of a FINISH in
Encrypt (R176). -/
inductive AnswerOf (i : Instr) (s : State) : Response → Prop
  | failed (status : Status) (notOk : status ≠ .ok) : AnswerOf i s ⟨status, [], []⟩
  | done (noChunk : i ≠ .update) (noTag : ∀ n, i = .finish n → s.dir = .decrypt) :
      AnswerOf i s ⟨.ok, [], []⟩
  | chunk (dout : Bytes) (update : i = .update) (length : dout.length = s.chan.din.length) :
      AnswerOf i s ⟨.ok, dout, []⟩
  | tag (n : Nat) (tagout : Bytes) (finish : i = .finish n) (encrypting : s.dir = .encrypt)
      (length : tagout.length = n) : AnswerOf i s ⟨.ok, [], tagout⟩

/-- A rejection answers with its status alone (60_exceptions.md R200). -/
theorem answerOf_fail (i : Instr) {s : State} {r : Response} {status : Status}
    (notOk : status ≠ .ok) (answer : (s.fail status).resp = some r) : AnswerOf i s r := by
  cases answer; exact .failed status notOk

/-- A START that has its effect puts nothing out (43_context_commands.md R165). -/
theorem answerOf_startEffect (d : Direction) {i : Instr} {s : State} {r : Response}
    (start : i = startInstr d) (answer : (startEffect d s).resp = some r) : AnswerOf i s r := by
  rw [startEffect_eq] at answer
  cases answer
  subst start
  cases d <;> exact .done nofun nofun

/-- UPDATE puts out a chunk as long as its input (R170). -/
theorem answerOf_updateEffect (enc : Block → Block) {s : State} {r : Response}
    (answer : (updateEffect enc s).resp = some r) : AnswerOf .update s r := by
  rw [updateEffect_eq] at answer
  cases answer
  exact .chunk _ rfl (updateBytes_length enc s.chan.din s)

/-- A FINISH of a legal tag length puts its tag out in Encrypt and nothing in Decrypt (R176). -/
theorem answerOf_finishEffect (enc : Block → Block) {n : Nat} {s : State} {r : Response}
    (legal : tagLenOk n = true) (answer : (finishEffect enc n s).resp = some r) :
    AnswerOf (.finish n) s r := by
  obtain ⟨-, bound⟩ := (tagLenOk_iff n).mp legal
  rw [finishEffect_eq, State.respond_resp] at answer
  cases answer
  cases dir : s.dir with
  | encrypt => simpa using AnswerOf.tag n _ rfl dir (operationTag_length enc n s bound)
  | decrypt =>
    cases tagEq (operationTag enc n s) s.chan.tagin with
    | false => simpa using AnswerOf.failed .authenticationFailure (by decide)
    | true => simpa using AnswerOf.done (i := .finish n) nofun fun _ _ => dir

/-- Every answer of a command is one of `AnswerOf`. -/
theorem answerOf_of_exec {i : Instr} {s t : State} {r : Response} (run : exec i s = .next t)
    (answer : t.resp = some r) : AnswerOf i s r := by
  cases i with
  | bindKey =>
    obtain ⟨-, rfl⟩ | ⟨-, -, rfl⟩ | ⟨-, -, rfl⟩ := execBindKey_cases run
    · exact answerOf_fail _ (by decide) answer
    · exact answerOf_fail _ (by decide) answer
    · cases answer; exact .done nofun nofun
  | startEnc =>
    obtain ⟨-, rfl⟩ | ⟨-, rfl⟩ := execStartEnc_cases run
    · exact answerOf_fail _ (by decide) answer
    · exact answerOf_startEffect .encrypt rfl answer
  | startDec =>
    obtain ⟨-, rfl⟩ | ⟨-, rfl⟩ := execStartDec_cases run
    · exact answerOf_fail _ (by decide) answer
    · exact answerOf_startEffect .decrypt rfl answer
  | update =>
    obtain ⟨-, rfl⟩ | ⟨-, handle, -, rfl⟩ := execUpdate_cases run
    · exact answerOf_fail _ (by decide) answer
    · exact answerOf_updateEffect _ answer
  | finish n =>
    obtain ⟨-, rfl⟩ | ⟨-, -, rfl⟩ | ⟨-, legal, -, handle, -, rfl⟩ := execFinish_cases run
    · exact answerOf_fail _ (by decide) answer
    · exact answerOf_fail _ (by decide) answer
    · exact answerOf_finishEffect _ legal answer

/-- Settles O28: the four answers of `AnswerOf`, each against the six claims. -/
theorem resultChannels : Obligations.ResultChannels := by
  intro i s t r run answer
  cases answerOf_of_exec run answer with
  | failed status notOk => simp [notOk]
  | done noChunk noTag =>
    refine ⟨by simp, by simp, fun update => absurd update noChunk, by simp, ?_, by simp⟩
    intro n finish encrypting
    simp [noTag n finish] at encrypting
  | chunk dout update length => simp [update, length]
  | tag n tagout finish encrypting length => simp [finish, encrypting, length]

end Sys2Proof.Machine
end

section
/-! PROOFS. Blocks as polynomials over GF(2) (40_gf128_multiplier.md R100): what `toPoly` makes of
the block operations, and the field polynomial. -/

namespace Sys2Proof.Machine

open Polynomial

@[simp] theorem gcmBit_xor (a b : Block) (i : Nat) :
    gcmBit (a ^^^ b) i = (gcmBit a i ^^ gcmBit b i) := by
  simp [gcmBit]

@[simp] theorem gcmBit_zero (i : Nat) : gcmBit 0#128 i = false := by simp [gcmBit]

/-- A shift to the right moves every coefficient one power up. -/
theorem gcmBit_ushiftRight_succ (v : Block) (i : Nat) (inside : i + 1 < 128) :
    gcmBit (v >>> 1) (i + 1) = gcmBit v i := by
  simp only [gcmBit, BitVec.getLsbD_ushiftRight]
  congr 1; omega

@[simp] theorem gcmBit_ushiftRight_zero (v : Block) : gcmBit (v >>> 1) 0 = false := by
  simp [gcmBit]

theorem gcmBit_twoPow {i j : Nat} (hi : i < 128) (hj : j < 128) :
    gcmBit (BitVec.twoPow 128 (127 - i)) j = decide (j = i) := by
  rw [gcmBit, BitVec.getLsbD_twoPow, ← Bool.decide_and, decide_eq_decide]
  omega

/-- The GCM bits determine the block. -/
theorem eq_of_gcmBit_eq {a b : Block} (same : ∀ i < 128, gcmBit a i = gcmBit b i) : a = b := by
  refine BitVec.eq_of_getLsbD_eq fun i inside => ?_
  have mirrored := same (127 - i) (by omega)
  rwa [gcmBit, gcmBit, show 127 - (127 - i) = i by omega] at mirrored

@[simp] theorem toPoly_zero : toPoly 0#128 = 0 := by simp [toPoly]

@[simp] theorem toPoly_xor (a b : Block) : toPoly (a ^^^ b) = toPoly a + toPoly b := by
  rw [toPoly, toPoly, toPoly, ← Finset.sum_add_distrib]
  refine Finset.sum_congr rfl fun i _ => ?_
  cases ha : gcmBit a i <;> cases hb : gcmBit b i <;> simp [ha, hb, CharTwo.add_self_eq_zero]

/-- A block with one bit set is a power of x. -/
theorem toPoly_twoPow (i : Nat) (inside : i < 128) :
    toPoly (BitVec.twoPow 128 (127 - i)) = X ^ i := by
  calc toPoly (BitVec.twoPow 128 (127 - i))
      = ∑ j ∈ Finset.range 128, if j = i then X ^ j else 0 :=
        Finset.sum_congr rfl fun j hj => by
          simp [gcmBit_twoPow inside (Finset.mem_range.mp hj)]
    _ = X ^ i := by simp [inside]

theorem toPoly_coeff (v : Block) (n : Nat) (inside : n < 128) :
    (toPoly v).coeff n = if gcmBit v n then 1 else 0 := by
  have term (i : Nat) : (if gcmBit v i then X ^ i else 0 : (ZMod 2)[X]).coeff n =
      if n = i then (if gcmBit v i then 1 else 0) else 0 := by
    split <;> simp [coeff_X_pow]
  simp [toPoly, finsetSum_coeff, term, inside]

theorem toPoly_injective : Function.Injective toPoly := by
  intro a b same
  refine eq_of_gcmBit_eq fun i inside => ?_
  have coeffs : (toPoly a).coeff i = (toPoly b).coeff i := by rw [same]
  rw [toPoly_coeff a i inside, toPoly_coeff b i inside] at coeffs
  cases ha : gcmBit a i <;> cases hb : gcmBit b i <;> simp [ha, hb] at coeffs ⊢

theorem toPoly_degree_lt (v : Block) : (toPoly v).degree < (128 : Nat) := by
  refine (degree_sum_le _ _).trans_lt
    ((Finset.sup_lt_iff (WithBot.bot_lt_coe 128)).mpr fun i hi => ?_)
  split
  · simpa using hi
  · exact degree_zero.trans_lt (WithBot.bot_lt_coe 128)

/-- R of R102 stands for what is left of P below x^128. -/
theorem toPoly_reduction : toPoly reduction = X ^ 7 + X ^ 2 + X + 1 := by
  have bits : reduction = BitVec.twoPow 128 (127 - 7) ^^^ BitVec.twoPow 128 (127 - 2) ^^^
      BitVec.twoPow 128 (127 - 1) ^^^ BitVec.twoPow 128 (127 - 0) := by decide +kernel
  rw [bits]
  simp only [toPoly_xor]
  rw [toPoly_twoPow 7 (by decide), toPoly_twoPow 2 (by decide), toPoly_twoPow 1 (by decide),
    toPoly_twoPow 0 (by decide), pow_one, pow_zero]

theorem gcmPoly_eq_toPoly_reduction : gcmPoly = X ^ 128 + toPoly reduction := by
  unfold gcmPoly
  rw [toPoly_reduction]
  simp only [add_assoc]

theorem gcmPoly_monic : gcmPoly.Monic := by
  rw [gcmPoly_eq_toPoly_reduction]
  exact monic_X_pow_add (toPoly_degree_lt reduction)

theorem gcmPoly_degree : gcmPoly.degree = (128 : Nat) := by
  rw [gcmPoly_eq_toPoly_reduction]
  rw [degree_add_eq_left_of_degree_lt] <;> rw [degree_X_pow]
  exact toPoly_degree_lt reduction

theorem gcmPoly_natDegree : gcmPoly.natDegree = 128 := natDegree_eq_of_degree_eq_some gcmPoly_degree

/-- The polynomial of a block is reduced already. -/
theorem toPoly_modByMonic_gcmPoly (v : Block) : toPoly v %ₘ gcmPoly = toPoly v := by
  rw [modByMonic_eq_self_iff gcmPoly_monic, gcmPoly_degree]
  exact toPoly_degree_lt v

/-- A shift to the right multiplies by x, and drops x^128 where bit 0 falls out. -/
theorem toPoly_ushiftRight (v : Block) :
    toPoly (v >>> 1) + (if v.getLsbD 0 then X ^ 128 else 0) = X * toPoly v := by
  have shifted : toPoly (v >>> 1) =
      ∑ i ∈ Finset.range 127, if gcmBit v i then X ^ (i + 1) else 0 := by
    rw [toPoly, Finset.sum_range_succ']
    simp only [gcmBit_ushiftRight_zero, Bool.false_eq_true, if_false, add_zero]
    refine Finset.sum_congr rfl fun i hi => ?_
    rw [gcmBit_ushiftRight_succ v i (by have := Finset.mem_range.mp hi; omega)]
  have last : gcmBit v 127 = v.getLsbD 0 := rfl
  rw [shifted, ← last, toPoly, Finset.sum_range_succ _ 127, mul_add, Finset.mul_sum]
  simp only [mul_ite, mul_zero, ← pow_succ']

/-- `mulX` multiplies by x and subtracts P where x^128 would stand. -/
theorem toPoly_mulX (v : Block) :
    toPoly (mulX v) = X * toPoly v + (if v.getLsbD 0 then gcmPoly else 0) := by
  rw [mulX, ← toPoly_ushiftRight, gcmPoly_eq_toPoly_reduction]
  split
  · rw [toPoly_xor, add_assoc, ← add_assoc (X ^ 128), CharTwo.add_self_eq_zero, zero_add]
  · simp

end Sys2Proof.Machine
end

section
/-! PROOFS. GFMUL as the product modulo P (40_gf128_multiplier.md R101), and the ring laws it takes
over from the polynomials (R103). -/

namespace Sys2Proof.Machine

open Polynomial

/-- The residue class modulo P of the polynomial of a block. -/
noncomputable def residue (v : Block) : AdjoinRoot gcmPoly := AdjoinRoot.mk gcmPoly (toPoly v)

/-- Blocks have degree below 128, so each is the only one of its class. -/
theorem residue_injective : Function.Injective residue := by
  intro a b same
  apply toPoly_injective
  rw [← toPoly_modByMonic_gcmPoly a, ← toPoly_modByMonic_gcmPoly b]
  exact modByMonic_eq_of_dvd_sub gcmPoly_monic (AdjoinRoot.mk_eq_mk.mp same)

@[simp] theorem residue_zero : residue 0#128 = 0 := by simp [residue]

@[simp] theorem residue_xor (a b : Block) : residue (a ^^^ b) = residue a + residue b := by
  simp [residue]

theorem residue_twoPow (i : Nat) (inside : i < 128) :
    residue (BitVec.twoPow 128 (127 - i)) = AdjoinRoot.root gcmPoly ^ i := by
  simp [residue, toPoly_twoPow i inside]

@[simp] theorem residue_gfOne : residue gfOne = 1 := by
  rw [show gfOne = BitVec.twoPow 128 (127 - 0) by decide +kernel, residue_twoPow 0 (by decide),
    pow_zero]

@[simp] theorem residue_mulX (v : Block) :
    residue (mulX v) = AdjoinRoot.root gcmPoly * residue v := by
  rw [residue, residue, toPoly_mulX]
  split <;> simp

theorem residue_eq_sum (v : Block) :
    residue v = ∑ i ∈ Finset.range 128, if gcmBit v i then AdjoinRoot.root gcmPoly ^ i else 0 := by
  simp only [residue, toPoly, map_sum]
  refine Finset.sum_congr rfl fun i _ => ?_
  split <;> simp

/-- The loop of R102 adds up V·x^k over the bits of X it still looks at. -/
theorem residue_gfmulLoop (x : Block) (left i : Nat) (v : Block) :
    residue (gfmulLoop x left i 0#128 v) =
      (∑ k ∈ Finset.range left, if gcmBit x (i + k) then AdjoinRoot.root gcmPoly ^ k else 0) *
        residue v := by
  induction left generalizing i v with
  | zero => simp
  | succ left ih =>
    have first : residue (if gcmBit x i then 0#128 ^^^ v else 0#128) =
        (if gcmBit x i then 1 else 0) * residue v := by
      split <;> simp
    have rest (k : Nat) :
        (if gcmBit x (i + (k + 1)) then AdjoinRoot.root gcmPoly ^ (k + 1) else 0) =
          (if gcmBit x (i + 1 + k) then AdjoinRoot.root gcmPoly ^ k else 0) *
            AdjoinRoot.root gcmPoly := by
      rw [Nat.add_right_comm i 1 k, ite_mul, zero_mul, pow_succ, Nat.add_assoc]
    rw [gfmulLoop_succ, gfmulLoop_start, residue_xor, ih, residue_mulX, first,
      Finset.sum_range_succ', Finset.sum_congr rfl fun k _ => rest k, ← Finset.sum_mul]
    simp only [Nat.add_zero, pow_zero]
    ring

/-- GFMUL is the product of the residue classes. -/
@[simp] theorem residue_gfmul (x y : Block) : residue (gfmul x y) = residue x * residue y := by
  rw [gfmul_eq, residue_gfmulLoop, residue_eq_sum x]
  simp

/-- Settles O42: both sides have degree below 128 and the same residue class. -/
theorem gfmulIsTheFieldProduct : Obligations.GfmulIsTheFieldProduct := by
  refine ⟨fun x y => ?_, by decide +kernel⟩
  have sameClass : AdjoinRoot.mk gcmPoly (toPoly (gfmul x y)) =
      AdjoinRoot.mk gcmPoly (toPoly x * toPoly y) := by
    rw [map_mul]; exact residue_gfmul x y
  rw [← toPoly_modByMonic_gcmPoly (gfmul x y)]
  exact modByMonic_eq_of_dvd_sub gcmPoly_monic (AdjoinRoot.mk_eq_mk.mp sameClass)

/-- Settles O43: each law holds of the residue classes, and blocks are told apart by theirs. -/
theorem gfmulRingLaws : Obligations.GfmulRingLaws := by
  refine ⟨fun x y => ?commutative, fun x y z => ?associative, fun x x' y => ?distributive,
    fun y => ?identity, fun y => ?annihilator⟩ <;> apply residue_injective
  case commutative => simp only [residue_gfmul, mul_comm]
  case associative => simp only [residue_gfmul, mul_assoc]
  case distributive => simp only [residue_gfmul, residue_xor, add_mul]
  case identity => simp only [residue_gfmul, residue_gfOne, one_mul]
  case annihilator => simp only [residue_gfmul, residue_zero, zero_mul]

end Sys2Proof.Machine
end

section
/-! PROOFS. P is irreducible, so GFMUL has no zero divisors (40_gf128_multiplier.md R103). The proof
is Rabin's test: x^(2^128) = x modulo P, and x^(2^64) - x has an inverse modulo P. GFMUL itself
computes both powers and checks the inverse. -/

namespace Sys2Proof.Machine

open Polynomial

/-- Rabin's test where the degree is a prime power: an irreducible factor has a degree that divides
r^(k+1) and does not divide r^k, so it is the whole polynomial. -/
theorem irreducible_of_frobenius {F : Type*} [Field F] [Finite F] {f : F[X]} {r k : Nat}
    (prime : r.Prime) (degree : f.natDegree = r ^ (k + 1))
    (fixed : f ∣ X ^ Nat.card F ^ r ^ (k + 1) - X)
    (moved : IsCoprime f (X ^ Nat.card F ^ r ^ k - X)) : Irreducible f := by
  have degree_pos : 0 < f.natDegree := degree ▸ pow_pos prime.pos _
  have f_ne_zero : f ≠ 0 := ne_zero_of_natDegree_gt degree_pos
  obtain ⟨g, irreducible, factor⟩ :=
    WfDvdMonoid.exists_irreducible_factor (not_isUnit_of_natDegree_pos f degree_pos) f_ne_zero
  have divides : g.natDegree ∣ r ^ (k + 1) :=
    irreducible.natDegree_dvd_iff_dvd_X_pow_card_pow_sub_X.mpr (factor.trans fixed)
  have not_divides : ¬ g.natDegree ∣ r ^ k := fun smaller =>
    irreducible.not_isUnit (moved.isUnit_of_dvd' factor
      (irreducible.natDegree_dvd_iff_dvd_X_pow_card_pow_sub_X.mp smaller))
  have same_degree : g.natDegree = r ^ (k + 1) :=
    Nat.eq_prime_pow_of_dvd_least_prime_pow prime not_divides divides
  have whole : Associated g f :=
    associated_of_dvd_of_natDegree_le factor f_ne_zero (by rw [degree, same_degree])
  exact whole.irreducible irreducible

/-- `n` squarings of a block with GFMUL. -/
def squareTimes : Nat → Block → Block
  | 0, v => v
  | n + 1, v => squareTimes n (gfmul v v)

theorem residue_squareTimes (n : Nat) (v : Block) :
    residue (squareTimes n v) = residue v ^ 2 ^ n := by
  induction n generalizing v with
  | zero => simp [squareTimes]
  | succ n ih => rw [squareTimes, ih, residue_gfmul, ← sq, ← pow_mul, pow_succ']

/-- The block of the polynomial x. -/
def gfX : Block := BitVec.twoPow 128 (127 - 1)

theorem toPoly_gfX : toPoly gfX = X := by rw [gfX, toPoly_twoPow 1 (by decide), pow_one]

/-- What squaring x with GFMUL computes is the class of x^(2^n). -/
theorem residue_squareTimes_gfX (n : Nat) :
    residue (squareTimes n gfX) = AdjoinRoot.mk gcmPoly (X ^ 2 ^ n) := by
  rw [residue_squareTimes, residue, toPoly_gfX, map_pow]

theorem gcmPoly_dvd_of_squareTimes {n : Nat} (fixed : squareTimes n gfX = gfX) :
    gcmPoly ∣ X ^ 2 ^ n - X := by
  rw [← AdjoinRoot.mk_eq_mk, ← residue_squareTimes_gfX, fixed, residue, toPoly_gfX]

theorem gcmPoly_isCoprime_of_gfmul {n : Nat} {inverse : Block}
    (product : gfmul inverse (squareTimes n gfX ^^^ gfX) = gfOne) :
    IsCoprime gcmPoly (X ^ 2 ^ n - X) := by
  have classes : AdjoinRoot.mk gcmPoly (toPoly inverse * (X ^ 2 ^ n - X)) =
      AdjoinRoot.mk gcmPoly 1 := by
    calc AdjoinRoot.mk gcmPoly (toPoly inverse * (X ^ 2 ^ n - X))
        = residue inverse * (residue (squareTimes n gfX) + residue gfX) := by
          rw [CharTwo.sub_eq_add, map_mul, map_add, residue_squareTimes_gfX, residue, residue,
            toPoly_gfX]
      _ = AdjoinRoot.mk gcmPoly 1 := by
          rw [← residue_xor, ← residue_gfmul, product, residue_gfOne, map_one]
  obtain ⟨q, quotient⟩ := AdjoinRoot.mk_eq_mk.mp classes
  exact ⟨-q, toPoly inverse, by linear_combination quotient⟩

theorem squareTimes_128_gfX : squareTimes (2 ^ (6 + 1)) gfX = gfX := by decide +kernel

/-- The inverse of x^(2^64) - x modulo P, by which x^(2^64) differs from x in every factor of P. -/
theorem gfmul_inverse_of_moved :
    gfmul 0x180da934bf53158251c13dbb149f5279#128 (squareTimes (2 ^ 6) gfX ^^^ gfX) = gfOne := by
  decide +kernel

theorem gcmPoly_irreducible : Irreducible gcmPoly := by
  refine irreducible_of_frobenius (r := 2) (k := 6) Nat.prime_two gcmPoly_natDegree ?_ ?_
  · rw [Nat.card_zmod]
    apply gcmPoly_dvd_of_squareTimes
    exact squareTimes_128_gfX
  · rw [Nat.card_zmod]
    apply gcmPoly_isCoprime_of_gfmul
    exact gfmul_inverse_of_moved

/-- Settles O44: the residue classes modulo an irreducible polynomial are a field. -/
theorem gfmulHasNoZeroDivisors : Obligations.GfmulHasNoZeroDivisors := by
  intro x y product
  have : Fact (Irreducible gcmPoly) := ⟨gcmPoly_irreducible⟩
  have zero : residue x * residue y = 0 := by rw [← residue_gfmul, product, residue_zero]
  refine (mul_eq_zero.mp zero).imp ?_ ?_ <;>
    exact fun h => residue_injective (h.trans residue_zero.symm)

end Sys2Proof.Machine
end

section
/-! PROOFS. The zero bytes after an AAD and the chunks of a ciphertext (41_ghash.md R122, R124,
R126, 43_context_commands.md R183): whatever the chunks, what counts is their concatenation. -/

namespace Sys2Proof.Machine

/-! ### Padding -/

/-- Padding is done once: a padded string has the blocks it had before (00_scope.md R11). -/
theorem blocks_pad16 (b : Bytes) : blocks (pad16 b) = blocks b :=
  blocks_of_aligned (pad16 b) (pad16_length_mod b)

/-- Settles O46: the padded AAD has the same blocks, and AAD_BITS is written from the AAD itself. -/
theorem aadPaddingIsHashedNotCounted : Obligations.AadPaddingIsHashedNotCounted := by
  intro a s
  have sameBlocks : blocks (a ++ List.replicate ((16 - a.length % 16) % 16) 0x00#8) = blocks a :=
    blocks_pad16 a
  constructor
  · rw [absorbAad_eq, absorbAad_eq, sameBlocks]
  · rw [absorbAad_eq]; rfl

/-! ### Absorbing chunk after chunk -/

/-- The byte loop of ABSORB_CT keeps the frame (R124). -/
theorem absorbCtBytes_streamFrame (cs : Bytes) (s : State) :
    StreamFrame s (absorbCtBytes cs s) := by
  induction cs generalizing s with
  | nil => exact streamFrame_refl s
  | cons c cs ih => exact streamFrame_trans (absorbCtByte_streamFrame c s) (ih _)

/-- The byte loop of ABSORB_CT takes the accumulator to the ciphertext with that chunk (R124). -/
theorem absorbCtBytes_absorbedAt (aad ct cs : Bytes) (s : State) (at_s : AbsorbedAt aad ct s) :
    AbsorbedAt aad (ct ++ cs) (absorbCtBytes cs s) := by
  induction cs generalizing ct s with
  | nil => rw [List.append_nil]; exact at_s
  | cons c cs ih =>
    rw [List.append_cons]
    exact ih _ _ (absorbCtByte_absorbedAt aad ct c s at_s)

/-- ABSORB_CT takes the accumulator to the ciphertext with that chunk: CT_BITS is none of its points
(R124). -/
theorem absorbCt_absorbedAt (aad ct cs : Bytes) (s : State) (at_s : AbsorbedAt aad ct s) :
    AbsorbedAt aad (ct ++ cs) (absorbCt cs s) :=
  absorbedAt_congr (absorbCtBytes_absorbedAt aad ct cs s at_s) rfl rfl rfl rfl

/-- ABSORB_CT keeps H and AAD_BITS, and CT_BITS grows by the bits of the chunk (R124). -/
theorem absorbCt_counts (c : Bytes) (s : State) :
    (absorbCt c s).h = s.h ∧ (absorbCt c s).aadBits = s.aadBits ∧
      (absorbCt c s).ctBits = s.ctBits + bitlen c := by
  have frame := absorbCtBytes_streamFrame c s
  exact ⟨frame.h, frame.aadBits, congrArg (· + bitlen c) frame.ctBits⟩

/-- Chunk after chunk the accumulator holds the concatenation of the chunks (R124). -/
theorem foldl_absorbCt_absorbedAt (aad ct : Bytes) (chunks : List Bytes) (s : State)
    (at_s : AbsorbedAt aad ct s) :
    AbsorbedAt aad (ct ++ chunks.flatten) (chunks.foldl (fun t c => absorbCt c t) s) := by
  induction chunks generalizing ct s with
  | nil => simpa using at_s
  | cons c cs ih =>
    rw [List.flatten_cons, ← List.append_assoc]
    exact ih _ _ (absorbCt_absorbedAt aad ct c s at_s)

/-- Chunk after chunk H and AAD_BITS stay, and CT_BITS counts the bits of the concatenation
(R124). -/
theorem foldl_absorbCt_counts (chunks : List Bytes) (s : State) :
    (chunks.foldl (fun t c => absorbCt c t) s).h = s.h ∧
      (chunks.foldl (fun t c => absorbCt c t) s).aadBits = s.aadBits ∧
      (chunks.foldl (fun t c => absorbCt c t) s).ctBits = s.ctBits + bitlen chunks.flatten := by
  induction chunks generalizing s with
  | nil => exact ⟨rfl, rfl, (BitVec.add_zero s.ctBits).symm⟩
  | cons c cs ih =>
    obtain ⟨h, aadBits, ctBits⟩ := absorbCt_counts c s
    obtain ⟨hRest, aadBitsRest, ctBitsRest⟩ := ih (absorbCt c s)
    rw [List.foldl_cons, List.flatten_cons, bitlen_append, ← BitVec.add_assoc, ← ctBits]
    exact ⟨hRest.trans h, aadBitsRest.trans aadBits, ctBitsRest⟩

/-- ABSORB_AAD on cleared registers leaves the accumulator where a message with that AAD and no
ciphertext has it (R122). -/
theorem absorbAad_absorbedAt (aad : Bytes) (s : State) (cleared : OpCleared s) :
    AbsorbedAt aad [] (absorbAad aad s) := by
  rw [absorbAad_eq]
  constructor
  · simp [cleared.ghFill]
  · simp [cleared.ghFill]
  · simp [cleared.y, fullBlocks, ghash]

/-- Settles O47: after the chunks the accumulator holds their concatenation, of which FINALIZE gives
the closed form. -/
theorem ghashClosedForm : Obligations.GhashClosedForm := by
  intro s aad chunks cleared
  have absorbed := foldl_absorbCt_absorbedAt aad [] chunks _ (absorbAad_absorbedAt aad s cleared)
  obtain ⟨h, aadBits, ctBits⟩ := foldl_absorbCt_counts chunks (absorbAad aad s)
  have counted : (absorbAad aad s).ctBits + bitlen chunks.flatten = bitlen chunks.flatten := by
    simp [absorbAad_eq, cleared.ctBits]
  rw [finalize_y_of_absorbedAt aad chunks.flatten _ absorbed, h, aadBits, ctBits, counted,
    absorbAad_eq]

/-- Settles O21: FINALIZE gives the closed form of S, and the tag is read off it. -/
theorem operationTagClosedForm : Obligations.OperationTagClosedForm :=
  fun s enc aad ct n => operationTag_of_operationAt enc aad ct n s

/-! ### A whole operation in two ways of cutting its data (43_context_commands.md R183) -/

/-- What the UPDATEs put out, taken together, depends on the whole data alone (R145). -/
theorem Message.outputsFrom_flatten_congr (m : Message) (start : Nat) {chunks chunks' : List Bytes}
    (same : chunks.flatten = chunks'.flatten) :
    (m.outputsFrom start chunks).flatten = (m.outputsFrom start chunks').flatten := by
  rw [outputsFrom_flatten, outputsFrom_flatten, same]

/-- The ciphertext depends on the whole data alone (41_ghash.md R127). -/
theorem Message.ciphertext_congr (m : Message) {chunks chunks' : List Bytes}
    (same : chunks.flatten = chunks'.flatten) : m.ciphertext chunks = m.ciphertext chunks' := by
  rw [ciphertext, ciphertext, m.outputsFrom_flatten_congr 0 same, same]

/-- An operation over the same data in other chunks ends in the same state, with the same output and
the same last answer (R183). -/
theorem Message.run_congr (m : Message) (s : State) {chunks chunks' : List Bytes} (n : Nat)
    (supplied : Bytes) (same : chunks.flatten = chunks'.flatten) (idle : s.ctxState ≠ .active)
    (unbounded : s.maxOperandBytes = none) (keyLen : keyLenOk m.key.length = true)
    (legal : tagLenOk n = true) (len : m.dir = .decrypt → supplied.length = n) :
    ∃ rs rs' t,
      runLines (m.lines chunks n supplied) s = some (rs, t) ∧
      runLines (m.lines chunks' n supplied) s = some (rs', t) ∧
      (updateOutputs rs).flatten = (updateOutputs rs').flatten ∧ rs.getLast? = rs'.getLast? := by
  have ran := m.run s chunks n supplied idle unbounded keyLen legal len
  have ran' := m.run s chunks' n supplied idle unbounded keyLen legal len
  rw [← m.ciphertext_congr same] at ran'
  refine ⟨_, _, _, ran, ran', ?_, ?_⟩
  · rw [updateOutputs_responses, updateOutputs_responses, m.outputsFrom_flatten_congr 0 same]
  · rw [List.getLast?_concat, List.getLast?_concat]

/-- Settles O57: `Message.run_congr` in each direction. -/
theorem streamingEquivalence : Obligations.StreamingEquivalence := by
  intro s key iv aad chunks chunks' idle unbounded keyLen same
  constructor
  · intro n legal
    exact Message.run_congr ⟨key, iv, aad, .encrypt⟩ s n [] same idle unbounded keyLen legal
      (fun decrypts => by cases decrypts)
  · intro tag legal
    exact Message.run_congr ⟨key, iv, aad, .decrypt⟩ s tag.length tag same idle unbounded keyLen
      legal (fun _ => rfl)

end Sys2Proof.Machine
end

section
/-! PROOFS. The counter and the initial counter block (42_ctr_keystream.md R140, R142, R147, R148):
a block is its high 96 and its low 32 bits, of which `inc32` counts the low ones only. -/

namespace Sys2Proof.Machine

/-! ### The increment -/

theorem inc32_low (v : Block) :
    (inc32 v).extractLsb' 0 32 = v.extractLsb' 0 32 + 1#32 := by
  simp only [inc32, BitVec.extractLsb'_append_eq_right]

/-- Settles O48: the halves of `inc32`, of which only the low one changes. -/
theorem incrementIsOfTheLow32Bits : Obligations.IncrementIsOfTheLow32Bits := by
  refine ⟨fun v => ⟨inc32_high v, inc32_low v⟩, fun v allOnes => ?wraps, ?sample⟩
  case wraps => rw [inc32_low, allOnes]; rfl
  case sample => decide

/-! ### The period -/

theorem inc32Times_low (n : Nat) (v : Block) :
    (inc32Times n v).extractLsb' 0 32 = v.extractLsb' 0 32 + BitVec.ofNat 32 n := by
  induction n with
  | zero => exact (BitVec.add_zero _).symm
  | succ n ih =>
    calc (inc32Times (n + 1) v).extractLsb' 0 32
      _ = (inc32Times n v).extractLsb' 0 32 + 1#32 := inc32_low _
      _ = v.extractLsb' 0 32 + BitVec.ofNat 32 (n + 1) := by
        rw [ih, BitVec.add_assoc, BitVec.ofNat_add]

/-- The two parts of a block which `inc32` tells apart, put together again (R140). -/
theorem block_high_append_low (v : Block) : v.extractLsb' 32 96 ++ v.extractLsb' 0 32 = v :=
  (BitVec.extractLsb'_append_extractLsb'_eq_extractLsb' rfl).trans BitVec.extractLsb'_eq_self

theorem block_eq_iff (u v : Block) :
    u = v ↔ u.extractLsb' 32 96 = v.extractLsb' 32 96 ∧ u.extractLsb' 0 32 = v.extractLsb' 0 32 := by
  constructor
  · rintro rfl
    exact ⟨rfl, rfl⟩
  · rintro ⟨high, low⟩
    rw [← block_high_append_low u, high, low, block_high_append_low v]

/-- The counter is back where it was exactly after a multiple of 2^32 increments (R147). -/
theorem inc32Times_eq_self_iff (n : Nat) (v : Block) : inc32Times n v = v ↔ 2 ^ 32 ∣ n := by
  calc inc32Times n v = v
    _ ↔ v.extractLsb' 0 32 + BitVec.ofNat 32 n = v.extractLsb' 0 32 := by
      rw [block_eq_iff, inc32Times_high, inc32Times_low, and_iff_right rfl]
    _ ↔ BitVec.ofNat 32 n = 0#32 := add_eq_left
    _ ↔ 2 ^ 32 ∣ n := by
      rw [← BitVec.toNat_inj, BitVec.toNat_ofNat, BitVec.toNat_zero, Nat.dvd_iff_mod_eq_zero]

/-- Settles O49: no positive number below 2^32 is a multiple of it. -/
theorem counterPeriod : Obligations.CounterPeriod := by
  constructor
  · intro v
    exact (inc32Times_eq_self_iff _ v).mpr (dvd_refl _)
  · intro v n positive below back
    have multiple : 2 ^ 32 ∣ n := (inc32Times_eq_self_iff n v).mp back
    exact absurd (Nat.le_of_dvd positive multiple) (Nat.not_le.mpr below)

/-! ### The initial counter block -/

/-- The direct path (R141, R142). -/
theorem deriveJ0_of_direct (h : Block) (iv : Bytes) (twelve : iv.length = 12) :
    deriveJ0 h iv = blk (iv ++ [0x00#8, 0x00#8, 0x00#8, 0x01#8]) := if_pos twelve

/-- The GHASH path (R141, R142). -/
theorem deriveJ0_of_hashed (h : Block) (iv : Bytes) (other : iv.length ≠ 12) :
    deriveJ0 h iv = ghash h (blocks iv ++ [lengthBlock 0#64 (bitlen iv)]) := if_neg other

theorem gfmul_zero_left (y : Block) : gfmul 0#128 y = 0#128 := by
  obtain ⟨-, -, -, -, annihilator⟩ := gfmulRingLaws
  exact annihilator y

/-- Hashing a zero block into a cleared accumulator leaves it cleared (41_ghash.md R121). -/
theorem ghash_zero_block (h : Block) : ghash h [0#128] = 0#128 := by
  have hashed : ghash h [0#128] = gfmul (0#128 ^^^ 0#128) h := rfl
  rw [hashed, BitVec.xor_self, gfmul_zero_left]

/-- The empty IV has no blocks, and its length block is zero (R142). -/
theorem deriveJ0_nil (h : Block) : deriveJ0 h [] = 0#128 := by
  have lengths : lengthBlock 0#64 (bitlen []) = 0#128 := by decide
  rw [deriveJ0_of_hashed h [] (by decide), blocks_nil, lengths, List.nil_append, ghash_zero_block]

/-- Settles O50: the two branches of DERIVE_J0, and the hash of the empty IV. -/
theorem initialCounterBlock : Obligations.InitialCounterBlock := by
  refine ⟨fun h iv twelve => ?direct, deriveJ0_of_hashed, deriveJ0_nil⟩
  case direct =>
    rw [deriveJ0_of_direct h iv twelve]
    exact bytes16_blk _ (by simp [twelve])

end Sys2Proof.Machine
end

section
/-! PROOFS. The transition table (43_context_commands.md R160): outside its context states a command
is rejected before anything else, and a legal one whose operands pass leads where the table says. -/

namespace Sys2Proof.Machine

/-! ### The columns of the table -/

theorem legalIn_bindKey (c : CtxState) : legalIn .bindKey c = decide (c ≠ .active) := by
  cases c <;> rfl

theorem legalIn_start (d : Direction) (c : CtxState) :
    legalIn (startInstr d) c = decide (c = .keyBound) := by
  cases d <;> cases c <;> rfl

theorem legalIn_update (c : CtxState) : legalIn .update c = decide (c = .active) := by
  cases c <;> rfl

theorem legalIn_finish (n : Nat) (c : CtxState) :
    legalIn (.finish n) c = decide (c = .active) := by
  cases c <;> rfl

/-- A command that is not legal in the context state answers InvalidState (R160, R203). -/
theorem exec_of_illegal (i : Instr) (s : State) (fits : s.operandsFit i = true)
    (illegal : legalIn i s.ctxState = false) : exec i s = .next (s.fail .invalidState) := by
  cases i with
  | bindKey =>
    have active : s.ctxState = .active :=
      not_not.mp (of_decide_eq_false ((legalIn_bindKey _).symm.trans illegal))
    show bindKeyWith Config.bcBind Config.bcEnc s = _
    simp [bindKeyWith, fits, active]
  | startEnc =>
    have unbound : s.ctxState ≠ .keyBound :=
      of_decide_eq_false ((legalIn_start .encrypt _).symm.trans illegal)
    show execStartEnc s = _
    simp [execStartEnc, fits, unbound]
  | startDec =>
    have unbound : s.ctxState ≠ .keyBound :=
      of_decide_eq_false ((legalIn_start .decrypt _).symm.trans illegal)
    show execStartDec s = _
    simp [execStartDec, fits, unbound]
  | update =>
    have idle : s.ctxState ≠ .active :=
      of_decide_eq_false ((legalIn_update _).symm.trans illegal)
    show updateWith Config.bcEnc s = _
    simp [updateWith, fits, idle]
  | finish n =>
    have idle : s.ctxState ≠ .active :=
      of_decide_eq_false ((legalIn_finish n _).symm.trans illegal)
    show finishWith Config.bcEnc n s = _
    simp [finishWith, fits, idle]

/-! ### The operand checks (60_exceptions.md R202) -/

theorem operandError_bindKey_eq_none_iff (s : State) :
    operandError .bindKey s = none ↔ keyLenOk s.chan.key.length = true := by
  rw [keyLenOk_iff, operandError]
  split_ifs with legal <;> simp [legal]

theorem operandError_finish_eq_none_iff (n : Nat) (s : State) :
    operandError (.finish n) s = none ↔
      tagLenOk n = true ∧ (s.dir = .decrypt → s.chan.tagin.length = n) := by
  rw [tagLenOk_iff]
  simp only [operandError]
  split_ifs with range differ
  · exact iff_of_false nofun fun ⟨legal, _⟩ => by omega
  · exact iff_of_false nofun fun ⟨_, same⟩ => differ.2 (same differ.1)
  · exact iff_of_true rfl
      ⟨by omega, fun decrypts => by_contra fun other => differ ⟨decrypts, other⟩⟩

/-- FINISH is answered with OK or AuthenticationFailure where it has its effect (R176). -/
theorem finishEffect_status (enc : Block → Block) (n : Nat) (s : State) :
    ∃ r, (finishEffect enc n s).resp = some r ∧
      (r.status = .ok ∨ r.status = .authenticationFailure) := by
  rw [finishEffect_eq, State.respond_resp]
  refine ⟨_, rfl, ?_⟩
  dsimp only
  split_ifs
  · exact .inr rfl
  · exact .inl rfl

/-- A START in KeyBound answers OK and leads to Active (R160, R165). -/
theorem exec_start_leads (d : Direction) (s : State) (fits : s.operandsFit (startInstr d) = true)
    (legal : legalIn (startInstr d) s.ctxState = true) :
    ∃ t r, exec (startInstr d) s = .next t ∧ t.resp = some r ∧ t.ctxState = .active ∧
      r.status = .ok := by
  have bound : s.ctxState = .keyBound :=
    of_decide_eq_true ((legalIn_start d _).symm.trans legal)
  exact ⟨_, ⟨.ok, [], []⟩, exec_start_of_keyBound d s fits bound, rfl, rfl, rfl⟩

/-- A legal command whose operands pass their checks leads where the table says (R160). -/
theorem exec_leads_to_target (i : Instr) (s : State) (fits : s.operandsFit i = true) (inv : Inv s)
    (legal : legalIn i s.ctxState = true) (checked : operandError i s = none) :
    ∃ t r, exec i s = .next t ∧ t.resp = some r ∧ t.ctxState = targetOf i ∧
      (r.status = .ok ∨ (r.status = .authenticationFailure ∧ ∃ n, i = .finish n)) := by
  have key (active : s.ctxState = .active) : ∃ handle, s.kh = some handle :=
    exists_handle_of_keyInv (keyInv_of_inv inv) (by simp [active])
  cases i with
  | bindKey =>
    have idle : s.ctxState ≠ .active :=
      of_decide_eq_true ((legalIn_bindKey _).symm.trans legal)
    have len := (operandError_bindKey_eq_none_iff s).mp checked
    exact ⟨_, ⟨.ok, [], []⟩, exec_bindKey_of_legal s fits idle len, rfl, rfl, .inl rfl⟩
  | startEnc =>
    obtain ⟨t, r, run, answer, active, ok⟩ := exec_start_leads .encrypt s fits legal
    exact ⟨t, r, run, answer, active, .inl ok⟩
  | startDec =>
    obtain ⟨t, r, run, answer, active, ok⟩ := exec_start_leads .decrypt s fits legal
    exact ⟨t, r, run, answer, active, .inl ok⟩
  | update =>
    have active : s.ctxState = .active :=
      of_decide_eq_true ((legalIn_update _).symm.trans legal)
    obtain ⟨handle, bound⟩ := key active
    obtain ⟨ctxState, -⟩ := updateEffect_frame (Config.bcEnc handle) s
    exact ⟨_, ⟨.ok, _, []⟩, exec_update_of_active s handle fits active bound, rfl,
      ctxState.trans active, .inl rfl⟩
  | finish n =>
    have active : s.ctxState = .active :=
      of_decide_eq_true ((legalIn_finish n _).symm.trans legal)
    obtain ⟨handle, bound⟩ := key active
    obtain ⟨len, same⟩ := (operandError_finish_eq_none_iff n s).mp checked
    obtain ⟨r, answer, status⟩ := finishEffect_status (Config.bcEnc handle) n s
    exact ⟨_, r, exec_finish_of_active s n handle fits active len same bound, answer,
      finishEffect_ctxState _ n s, status.imp_right fun failed => ⟨failed, n, rfl⟩⟩

/-- Settles O24: the cells of R160 for illegal commands, for legal ones, and for ILLEGAL words. -/
theorem transitionTable : Obligations.TransitionTable := by
  refine ⟨exec_of_illegal, exec_leads_to_target, ?illegalWord⟩
  case illegalWord =>
    intro s c rest pend noEncoding
    exact ⟨_, illegalWordAnswered s c rest pend noEncoding, rfl, rfl⟩

/-- Settles O35: of the effects that begin in Active only reset's and FINISH's end elsewhere. -/
theorem onlyFinishAndResetLeaveActive : Obligations.OnlyFinishAndResetLeaveActive := by
  intro s t active run leaves
  cases stepEffect_of_step run with
  | kept same => exact absurd (same.ctxState.trans active) leaves
  | reset cut rest pend => exact .inl ⟨cut, rest, pend⟩
  | bindKey c rest pend word idle => exact absurd active idle
  | start => exact absurd (startEffect_ctxState _ _) leaves
  | update c rest =>
    obtain ⟨ctxState, -⟩ := updateEffect_frame _ (s.accept c rest)
    exact absurd (ctxState.trans active) leaves
  | finish c rest handle n pend word _ legal len =>
    obtain ⟨low, high⟩ := (tagLenOk_iff n).mp legal
    exact .inr ⟨c, rest, n, pend, eq_encode_of_decode word, low, high, len,
      finishEffect_ctxState _ n _⟩

/-- Settles O36: of the effects that begin in Finalized only reset's and BIND_KEY's end elsewhere,
and the table rejects a START there. -/
theorem onlyBindKeyAndResetLeaveFinalized : Obligations.OnlyBindKeyAndResetLeaveFinalized := by
  constructor
  · intro s t finalized run leaves
    cases stepEffect_of_step run with
    | kept same => exact absurd (same.ctxState.trans finalized) leaves
    | reset cut rest pend => exact .inl ⟨cut, rest, pend⟩
    | bindKey c rest pend word => exact .inr ⟨c, rest, pend, eq_of_decode_bindKey word, rfl⟩
    | start c rest d pend word keyBound => simp [finalized] at keyBound
    | update c rest handle pend word active => simp [finalized] at active
    | finish c rest handle n pend word active => simp [finalized] at active
  · rintro s i (rfl | rfl) finalized fits
    · exact exec_of_illegal .startEnc s fits (by rw [finalized]; rfl)
    · exact exec_of_illegal .startDec s fits (by rw [finalized]; rfl)

end Sys2Proof.Machine
end

section
/-! PROOFS. BIND_KEY and START (43_context_commands.md R161, R165 to R167): their rejections and
every register they leave. -/

namespace Sys2Proof.Machine

/-- BIND_KEY of a key of another length is rejected outside Active (R161). -/
theorem exec_bindKey_of_keyLen (s : State) (fits : s.operandsFit .bindKey = true)
    (idle : s.ctxState ≠ .active) (len : keyLenOk s.chan.key.length = false) :
    exec .bindKey s = .next (s.fail .invalidKeyLength) := by
  show bindKeyWith Config.bcBind Config.bcEnc s = _
  simp [bindKeyWith, fits, idle, len]

/-- Settles O13: the table's rejection, the key-length check, and the effect. -/
theorem bindKeyBindsAndComputesSubkey : Obligations.BindKeyBindsAndComputesSubkey := by
  intro s fits
  refine ⟨fun active => ?_, fun idle len => ?_, fun idle len => ?_⟩
  · exact exec_of_illegal .bindKey s fits
      ((legalIn_bindKey _).trans (decide_eq_false (not_not.mpr active)))
  · rw [← keyLenOk_iff, Bool.not_eq_true] at len
    exact exec_bindKey_of_keyLen s fits idle len
  · exact exec_bindKey_of_legal s fits idle ((keyLenOk_iff _).mpr len)

/-- BIND_KEY reads the key alone, and writes the same values over its own (20_memory.md R57). -/
theorem bindKeyEffect_idempotent (bind : Bytes → KeyHandle) (enc : KeyHandle → Block → Block)
    (s : State) : bindKeyEffect bind enc (bindKeyEffect bind enc s) = bindKeyEffect bind enc s :=
  rfl

/-- An answered command's operands fit (20_memory.md R51). -/
theorem operandsFit_of_exec {i : Instr} {s t : State} (run : exec i s = .next t) :
    s.operandsFit i = true := by
  by_contra long
  simp [exec_of_not_fits i s (Bool.eq_false_iff.mpr long)] at run

/-- Settles O41: the first BIND_KEY had its effect, and so has the second, which is the same. -/
theorem bindKeyTwiceIsOnce : Obligations.BindKeyTwiceIsOnce := by
  intro s t run answer
  have fits := operandsFit_of_exec run
  obtain ⟨-, rfl⟩ | ⟨-, -, rfl⟩ | ⟨-, len, rfl⟩ := execBindKey_cases run
  · simp at answer
  · simp at answer
  · exact (exec_bindKey_of_legal (bindKeyEffect _ _ s) fits nofun len).trans
      (congrArg _ (bindKeyEffect_idempotent _ _ s))

/-- START in either direction: its rejection and every register it leaves (R165). -/
theorem exec_start_spec (d : Direction) (s : State) (fits : s.operandsFit (startInstr d) = true) :
    (s.ctxState ≠ .keyBound →
      exec (startInstr d) s = .next { s with resp := some ⟨.invalidState, [], []⟩ }) ∧
    (s.ctxState = .keyBound →
      exec (startInstr d) s = .next { s with
        ctxState := .active, dir := d
        j0 := deriveJ0 s.h s.chan.iv, ctr := inc32 (deriveJ0 s.h s.chan.iv)
        ksBuf := 0#128, ksPos := 16
        y := ghash s.h (blocks s.chan.aad)
        ghBuf := zeroBuf, ghFill := 0, aadBits := bitlen s.chan.aad, ctBits := 0#64
        resp := some ⟨.ok, [], []⟩ }) := by
  constructor
  · exact fun unbound =>
      exec_of_illegal _ s fits ((legalIn_start d _).trans (decide_eq_false unbound))
  · exact fun bound => by rw [exec_start_of_keyBound d s fits bound, startEffect_eq]

/-- Settles O14: START in the Encrypt direction. -/
theorem startEncBeginsOperation : Obligations.StartEncBeginsOperation := exec_start_spec .encrypt

/-- Settles O15: START in the Decrypt direction. -/
theorem startDecBeginsOperation : Obligations.StartDecBeginsOperation := exec_start_spec .decrypt

/-- Settles O19: a START answered in KeyBound had its effect, in either direction. -/
theorem startEstablishesOperation : Obligations.StartEstablishesOperation := by
  intro s t enc i start keyBound run
  obtain ⟨d, rfl⟩ : ∃ d, i = startInstr d := by
    obtain rfl | rfl := start
    · exact ⟨.encrypt, rfl⟩
    · exact ⟨.decrypt, rfl⟩
  rw [exec_start_of_keyBound d s (operandsFit_of_exec run) keyBound] at run
  cases run
  exact ⟨startEffect_operationAt enc d s, startEffect_tailZero d s⟩

end Sys2Proof.Machine
end

section
/-! PROOFS. UPDATE (43_context_commands.md R170): what it puts out, and what it leaves alone. -/

namespace Sys2Proof.Machine

/-- Settles O16: the effect of UPDATE keeps its frame and the high bits of CTR. -/
theorem updateCompletesWithItsFrame : Obligations.UpdateCompletesWithItsFrame := by
  intro s handle fits active bound
  obtain ⟨ctxState, kh, h, dir, j0, aadBits, outside⟩ := updateEffect_frame (Config.bcEnc handle) s
  have counted : (updateEffect (Config.bcEnc handle) s).ctBits = s.ctBits + bitlen s.chan.din := by
    rw [updateEffect_eq]
  exact ⟨_, _, exec_update_of_active s handle fits active bound, rfl, updateBytes_length _ _ s,
    counted, ctxState.trans active, kh, h, dir, j0, aadBits, updateEffect_ctr_high _ s, outside⟩

/-- An empty chunk changes the response alone (R170). -/
theorem updateEffect_of_empty (enc : Block → Block) (s : State) (empty : s.chan.din = []) :
    updateEffect enc s = { s with resp := some ⟨.ok, [], []⟩ } := by
  have none_counted : s.ctBits + bitlen [] = s.ctBits := BitVec.add_zero _
  simp only [updateEffect_eq, empty, updateBytes_nil, none_counted]

/-- Settles O17: the output and the operation of UPDATE's effect, and its frame. -/
theorem updateTransformsAndAbsorbs : Obligations.UpdateTransformsAndAbsorbs := by
  intro s handle aad ct fits active bound op
  obtain ⟨ctxState, kh, h, dir, j0, -, outside⟩ := updateEffect_frame (Config.bcEnc handle) s
  have kept (empty : s.chan.din = []) : (updateEffect (Config.bcEnc handle) s).ksBuf = s.ksBuf := by
    rw [updateEffect_of_empty _ s empty]
  exact ⟨_, exec_update_of_active s handle fits active bound, updateEffect_resp _ aad ct s op,
    updateEffect_operationAt _ aad ct s op, ctxState.trans active, kh, h, dir, j0,
    updateEffect_tailZero _ s, kept, outside⟩

/-- Settles O18: the empty operand fits, and UPDATE's effect on it is the response. -/
theorem emptyUpdateChangesNothing : Obligations.EmptyUpdateChangesNothing := by
  intro s handle active bound empty
  have fits : s.operandsFit .update = true := by
    simp [State.operandsFit, operandsOf, empty, State.fits]
  rw [exec_update_of_active s handle fits active bound, updateEffect_of_empty _ s empty]

end Sys2Proof.Machine
end

section
/-! PROOFS. FINISH (43_context_commands.md R176 to R178): its rejections, its effect in each
direction, and what it releases. -/

namespace Sys2Proof.Machine

/-- FINISH in Active with a tag length that fails a check is rejected (R176, 44_tag.md R193,
R194). -/
theorem exec_finish_of_tagLen (s : State) (n : Nat) (fits : s.operandsFit (.finish n) = true)
    (active : s.ctxState = .active)
    (bad : tagLenOk n = false ∨ (s.dir = .decrypt ∧ s.chan.tagin.length ≠ n)) :
    exec (.finish n) s = .next (s.fail .invalidTagLength) := by
  show finishWith Config.bcEnc n s = _
  cases legal : tagLenOk n with
  | false => simp [finishWith, fits, active, legal]
  | true =>
    have differ := bad.resolve_left (by simp [legal])
    simp [finishWith, fits, active, legal, differ]

/-- FINISH of an Encrypt operation puts its tag out (R176). -/
theorem finishEffect_encrypt (enc : Block → Block) (n : Nat) (s : State) (hd : s.dir = .encrypt) :
    finishEffect enc n s = (endOperation s).respond .ok [] (operationTag enc n s) := by
  simp [finishEffect_eq, hd]

/-- FINISH of a Decrypt operation answers whether the supplied tag, of the same length, is the
operation's (R176). -/
theorem finishEffect_decrypt (enc : Block → Block) (n : Nat) (s : State) (hd : s.dir = .decrypt)
    (bound : n ≤ 16) (same : s.chan.tagin.length = n) :
    finishEffect enc n s = (endOperation s).respond
      (if operationTag enc n s = s.chan.tagin then .ok else .authenticationFailure) [] [] := by
  have differs : tagEq (operationTag enc n s) s.chan.tagin = false ↔
      operationTag enc n s ≠ s.chan.tagin := by
    rw [← Bool.not_eq_true,
      tagEq_iff_eq _ _ ((operationTag_length enc n s bound).trans same.symm)]
  simp [finishEffect_eq, hd, differs]

/-- Settles O20: the table's rejection, the tag-length checks, and the effect in each direction. -/
theorem finishEndsOperation : Obligations.FinishEndsOperation := by
  intro s n fits
  refine ⟨fun idle => ?state, fun active bad => ?length, ?effect⟩
  case state => exact exec_of_illegal _ s fits ((legalIn_finish n _).trans (decide_eq_false idle))
  case length =>
    refine exec_finish_of_tagLen s n fits active (bad.imp_left fun range => ?_)
    rw [← Bool.not_eq_true, tagLenOk_iff]
    omega
  case effect =>
    intro handle active bound low high same
    rw [exec_finish_of_active s n handle fits active ((tagLenOk_iff n).mpr ⟨low, high⟩) same bound]
    cases hd : s.dir with
    | encrypt => rw [finishEffect_encrypt _ n s hd]; rfl
    | decrypt =>
      rw [finishEffect_decrypt _ n s hd high (same hd)]
      by_cases agree : operationTag (Config.bcEnc handle) n s = s.chan.tagin
      · simp only [if_pos agree]; rfl
      · simp only [if_neg agree]; rfl

/-- Settles O29: the result channels of FINISH by O28, and its statuses in Encrypt. -/
theorem finishReleasesOnlyItsResult : Obligations.FinishReleasesOnlyItsResult := by
  intro s t n r run answer
  obtain ⟨-, noChunk, -, -, tagged, untagged⟩ := resultChannels _ s t r run answer
  refine ⟨fun hd => ⟨noChunk nofun, tagged n rfl hd, ?status⟩,
    fun hd => ⟨noChunk nofun, untagged n rfl hd⟩⟩
  case status =>
    obtain ⟨-, rfl⟩ | ⟨-, -, rfl⟩ | ⟨-, -, -, handle, -, rfl⟩ := execFinish_cases run
    · cases answer; exact .inr (.inl rfl)
    · cases answer; exact .inr (.inr rfl)
    · rw [finishEffect_encrypt _ n s hd] at answer
      cases answer; exact .inl rfl

end Sys2Proof.Machine
end

section
/-! PROOFS. Tampering (43_context_commands.md R184): a flipped bit of the tag, and a flipped bit of
the data where H is not zero, which the hash carries to its end. -/

namespace Sys2Proof.Machine

/-! ### One flipped bit in a string and in its blocks -/

@[simp] theorem flipBit_length (b : Bytes) (i k : Nat) : (flipBit b i k).length = b.length := by
  simp [flipBit]

/-- A flipped bit makes another string. -/
theorem flipBit_ne (b : Bytes) (i k : Nat) (inside : i < b.length) (bit : k < 8) :
    flipBit b i k ≠ b := by
  intro same
  have moved : ∀ k < 8, (0x01#8 <<< k : Byte) ≠ 0x00#8 := by decide
  have byte := congrArg (fun l : Bytes => l.getD i 0x00#8) same
  simp only [flipBit, List.getD_eq_getElem _ _ inside, List.getD_eq_getElem _ _
    (by simpa using inside : i < (b.set i _).length), List.getElem_set_self] at byte
  exact moved k bit ((BitVec.xor_right_inj _).mp (byte.trans BitVec.xor_zero.symm))

/-- Padding goes behind the flipped bit (00_scope.md R11). -/
theorem pad16_flipBit (b : Bytes) (i k : Nat) (inside : i < b.length) :
    pad16 (flipBit b i k) = flipBit (pad16 b) i k := by
  simp only [pad16, flipBit, List.length_set, List.set_append, if_pos inside,
    List.getD_append _ _ _ _ inside]

/-- The piece with the flipped bit. -/
theorem piece16_flipBit_same (b : Bytes) (i k : Nat) :
    piece16 (flipBit b i k) (i / 16) = flipBit (piece16 b (i / 16)) (i % 16) k := by
  have place : 16 * (i / 16) + i % 16 = i := Nat.div_add_mod i 16
  have low : i % 16 < 16 := Nat.mod_lt i (by decide)
  have start : ¬ i < 16 * (i / 16) := by omega
  have offset : i - 16 * (i / 16) = i % 16 := by omega
  simp only [piece16, flipBit, List.drop_set, if_neg start, List.take_set, offset,
    List.getD_eq_getElem?_getD, List.getElem?_take, if_pos low, List.getElem?_drop, place]

/-- Every other piece. -/
theorem piece16_flipBit_other (b : Bytes) (i k j : Nat) (other : j ≠ i / 16) :
    piece16 (flipBit b i k) j = piece16 b j := by
  simp only [piece16, flipBit, List.drop_set]
  split_ifs with before
  · rfl
  · rw [List.take_set, List.set_eq_of_length_le (by simp; omega)]

theorem blocks_getElem (b : Bytes) (j : Nat) (hj : j < (blocks b).length) :
    (blocks b)[j] = blk (piece16 (pad16 b) j) := by
  simp [blocks]

theorem blk_injective {a b : Bytes} (ha : a.length = 16) (hb : b.length = 16)
    (same : blk a = blk b) : a = b := by
  rw [← bytes16_blk a ha, ← bytes16_blk b hb, same]

/-- A flipped bit changes one block of the string and no other. -/
theorem blocks_flipBit (b : Bytes) (i k : Nat) (inside : i < b.length) (bit : k < 8) :
    ∃ (j : Nat) (hj : j < (blocks b).length) (x : Block), x ≠ (blocks b)[j] ∧
      blocks (flipBit b i k) = (blocks b).set j x := by
  have count := blocks_length b
  have whole := pad16_length_mod b
  have padded : b.length ≤ (pad16 b).length := by simp [pad16]
  have hj : i / 16 < (blocks b).length := by omega
  have length16 : (piece16 (pad16 b) (i / 16)).length = 16 := by simp [piece16]; omega
  refine ⟨i / 16, hj, blk (flipBit (piece16 (pad16 b) (i / 16)) (i % 16) k), fun same => ?_, ?_⟩
  · have low : i % 16 < 16 := Nat.mod_lt i (by decide)
    rw [blocks_getElem] at same
    exact flipBit_ne _ _ k (by omega) bit
      (blk_injective (by rw [flipBit_length, length16]) length16 same)
  · refine List.ext_getElem (by simp [blocks_length]) fun m _ _ => ?_
    rw [blocks_getElem, pad16_flipBit b i k inside, List.getElem_set]
    split_ifs with same
    · rw [← same, piece16_flipBit_same]
    · rw [blocks_getElem, piece16_flipBit_other _ _ _ _ (Ne.symm same)]

/-! ### The hash tells the blocks apart (40_gf128_multiplier.md R103, 41_ghash.md R126) -/

/-- Multiplication by a block that is not zero is injective (R103). -/
theorem gfmul_left_injective {h : Block} (nonzero : h ≠ 0#128) :
    Function.Injective fun x => gfmul x h := by
  intro x y same
  obtain ⟨-, -, distributive, -, -⟩ := gfmulRingLaws
  have product : gfmul (x ^^^ y) h = 0#128 := by
    rw [distributive, show gfmul x h = gfmul y h from same, BitVec.xor_self]
  exact BitVec.xor_eq_zero_iff.mp
    ((gfmulHasNoZeroDivisors _ _ product).resolve_right nonzero)

theorem ghashFrom_injective {h : Block} (nonzero : h ≠ 0#128) (bs : List Block) :
    Function.Injective fun t => ghashFrom h t bs := by
  induction bs with
  | nil => exact fun _ _ same => same
  | cons b bs ih =>
    intro t t' same
    exact (BitVec.xor_left_inj _).mp (gfmul_left_injective nonzero (ih same))

/-- Changing one block changes the hash. -/
theorem ghashFrom_set_ne {h : Block} (nonzero : h ≠ 0#128) (t : Block) (bs : List Block) (j : Nat)
    (hj : j < bs.length) (x : Block) (changed : x ≠ bs[j]) :
    ghashFrom h t (bs.set j x) ≠ ghashFrom h t bs := by
  induction bs generalizing t j with
  | nil => simp at hj
  | cons b bs ih =>
    cases j with
    | zero =>
      intro same
      have stepped := gfmul_left_injective nonzero (ghashFrom_injective nonzero bs same)
      exact changed ((BitVec.xor_right_inj _).mp stepped)
    | succ j => exact ih _ j (by simpa using hj) (by simpa using changed)

/-- Flipping one bit of a string changes its hash, from whatever value on. -/
theorem ghashFrom_flipped_ne {h : Block} (nonzero : h ≠ 0#128) (t : Block) {b b' : Bytes}
    (flipped : OneBitFlipped b b') : ghashFrom h t (blocks b') ≠ ghashFrom h t (blocks b) := by
  obtain ⟨i, k, inside, bit, rfl⟩ := flipped
  obtain ⟨j, hj, x, changed, form⟩ := blocks_flipBit b i k inside bit
  rw [form]
  exact ghashFrom_set_ne nonzero t _ j hj x changed

theorem bitlen_flipped {b b' : Bytes} (flipped : OneBitFlipped b b') : bitlen b' = bitlen b := by
  obtain ⟨i, k, -, -, rfl⟩ := flipped
  exact bitlen_congr (flipBit_length b i k)

/-- S in closed form (41_ghash.md R126). -/
def closedHash (h : Block) (aad ct : Bytes) : Block :=
  ghash h (blocks aad ++ blocks ct ++ [lengthBlock (bitlen aad) (bitlen ct)])

/-- Flipping one bit of the AAD or of the ciphertext changes S. -/
theorem closedHash_flipped_ne {h : Block} (nonzero : h ≠ 0#128) {aad ct aad' ct' : Bytes}
    (flipped : (OneBitFlipped aad aad' ∧ ct' = ct) ∨ (aad' = aad ∧ OneBitFlipped ct ct')) :
    closedHash h aad' ct' ≠ closedHash h aad ct := by
  intro same
  simp only [closedHash, ghash, ghashFrom_append] at same
  obtain ⟨aadFlipped, rfl⟩ | ⟨rfl, ctFlipped⟩ := flipped
  · rw [bitlen_flipped aadFlipped] at same
    exact ghashFrom_flipped_ne nonzero _ aadFlipped
      (ghashFrom_injective nonzero _ (ghashFrom_injective nonzero _ same))
  · rw [bitlen_flipped ctFlipped] at same
    exact ghashFrom_flipped_ne nonzero _ ctFlipped (ghashFrom_injective nonzero _ same)

/-! ### FINISH rejects -/

/-- FINISH of a Decrypt operation with a tag that is not the operation's answers
AuthenticationFailure and ends the operation (R176). -/
theorem exec_finish_rejects (s : State) (n : Nat) (handle : KeyHandle)
    (fits : s.operandsFit (.finish n) = true) (active : s.ctxState = .active)
    (bound : s.kh = some handle) (hd : s.dir = .decrypt) (legal : tagLenOk n = true)
    (same : s.chan.tagin.length = n)
    (differs : operationTag (Config.bcEnc handle) n s ≠ s.chan.tagin) :
    ∃ t, exec (.finish n) s = .next t ∧ t.resp = some ⟨.authenticationFailure, [], []⟩ ∧
      t.ctxState = .finalized := by
  obtain ⟨-, high⟩ := (tagLenOk_iff n).mp legal
  have effect := finishEffect_decrypt (Config.bcEnc handle) n s hd high same
  rw [if_neg differs] at effect
  exact ⟨_, (exec_finish_of_active s n handle fits active legal (fun _ => same) bound).trans
    (congrArg _ effect), rfl, rfl⟩

/-- Settles O53: the flipped tag has the same length and is another string. -/
theorem tamperedTagIsRejected : Obligations.TamperedTagIsRejected := by
  intro s handle n i k active bound hd low high inside bit supplied fits
  have len := operationTag_length (Config.bcEnc handle) n s high
  refine exec_finish_rejects s n handle fits active bound hd ((tagLenOk_iff n).mpr ⟨low, high⟩)
    (by rw [supplied, flipBit_length, len]) ?_
  rw [supplied]
  exact (flipBit_ne _ i k (by omega) bit).symm

/-- A tag of sixteen bytes tells the hashes apart (44_tag.md R190, R191). -/
theorem operationTag_ne_of_closedHash_ne {enc : Block → Block} {aad ct aad' ct' : Bytes}
    {s s' : State} (op : OperationAt enc aad ct s) (op' : OperationAt enc aad' ct' s')
    (h : s'.h = s.h) (j0 : s'.j0 = s.j0)
    (differ : closedHash s.h aad' ct' ≠ closedHash s.h aad ct) :
    operationTag enc 16 s' ≠ operationTag enc 16 s := by
  rw [operationTag_of_operationAt enc aad ct 16 s op,
    operationTag_of_operationAt enc aad' ct' 16 s' op', h, j0,
    List.take_of_length_le (by simp), List.take_of_length_le (by simp)]
  intro same
  have blocksAgree := congrArg blk same
  rw [blk_bytes16, blk_bytes16] at blocksAgree
  exact differ ((BitVec.xor_right_inj _).mp blocksAgree)

/-- Settles O54: the flipped bit changes S, and with it the tag of sixteen bytes. -/
theorem tamperedDataIsRejected : Obligations.TamperedDataIsRejected := by
  intro s s' handle aad ct aad' ct' op op' h j0 nonzero flipped active bound hd supplied fits
  have differ := operationTag_ne_of_closedHash_ne op op' h j0
    (closedHash_flipped_ne nonzero flipped)
  have len := operationTag_length (Config.bcEnc handle) 16 s le_rfl
  obtain ⟨t, run, answer, -⟩ := exec_finish_rejects s' 16 handle fits active bound hd (by decide)
    (by rw [supplied, len]) (by rwa [supplied])
  exact ⟨t, run, answer⟩

end Sys2Proof.Machine
end

section
/-! PROOFS. Opening what was sealed (43_context_commands.md R182): the keystream goes in twice and
comes out again, and the tag is made of the same ciphertext. -/

namespace Sys2Proof.Machine

/-- Combining twice with the same bytes gives the string back. -/
theorem xorBytes_xorBytes (a b : Bytes) (same : a.length = b.length) :
    xorBytes (xorBytes a b) b = a := by
  induction a generalizing b with
  | nil => rfl
  | cons x a ih =>
    obtain ⟨y, b, rfl⟩ := List.exists_cons_of_length_eq_add_one same.symm
    rw [xorBytes_cons, xorBytes_cons, ih b (by simpa using same), BitVec.xor_assoc,
      BitVec.xor_self, BitVec.xor_zero]

/-- The operation in the other direction on the outputs of this one gives its chunks back. -/
theorem Message.outputsFrom_outputsFrom (m : Message) (d : Direction) (start : Nat)
    (chunks : List Bytes) :
    { m with dir := d }.outputsFrom start (m.outputsFrom start chunks) = chunks := by
  induction chunks generalizing start with
  | nil => rfl
  | cons c cs ih =>
    have len := xorBytes_length c (keystreamFrom m.enc m.j0 start c.length) (by simp)
    have back := xorBytes_xorBytes c (keystreamFrom m.enc m.j0 start c.length) (by simp)
    simp only [outputsFrom, len, ih]
    exact congrArg (· :: cs) back

/-- A tag of a legal length is that long (44_tag.md R191). -/
theorem Message.tag_length (m : Message) (ct : Bytes) (n : Nat) (legal : tagLenOk n = true) :
    (m.tag ct n).length = n := by
  obtain ⟨-, high⟩ := (tagLenOk_iff n).mp legal
  rw [tag, List.length_take, bytes16_length, Nat.min_eq_left high]

/-- Settles O58: `Message.run` in the Encrypt direction, and in the Decrypt direction on what that
put out. -/
theorem sealThenOpenRoundTrip : Obligations.SealThenOpenRoundTrip := by
  intro s s' key iv aad chunks n idle unbounded idle' unbounded' keyLen legal
  let m : Message := ⟨key, iv, aad, .encrypt⟩
  let m' : Message := { m with dir := .decrypt }
  let sealed : List Bytes := m.outputsFrom 0 chunks
  let tag : Bytes := m.tag sealed.flatten n
  have len : tag.length = n := m.tag_length _ n legal
  have accepted : m'.answer (m'.tag (m'.ciphertext sealed) n) tag = okWith [] := if_pos rfl
  have ran := m.run s chunks n [] idle unbounded keyLen legal nofun
  have ran' := m'.run s' sealed n tag idle' unbounded' keyLen legal fun _ => len
  rw [accepted] at ran'
  refine ⟨_, _, ran, ?_, m'.responses sealed ++ [okWith []], m'.finalState s' tag (okWith []),
    ?_, ?_, ?_⟩
  · rw [allOk_append, m.responses_allOk]; rfl
  · rw [m.updateOutputs_responses, finalTag_concat]
    show runLines (openLines key iv aad sealed tag) s' = _
    rw [openLines, len]
    exact ran'
  · rw [allOk_append, m'.responses_allOk]; rfl
  · rw [m'.updateOutputs_responses]
    exact m.outputsFrom_outputsFrom .decrypt 0 chunks

end Sys2Proof.Machine
end

section
/-! PROOFS. The tag (44_tag.md R191, R192, R195): its comparison, and the tags of every length as
beginnings of the one of sixteen bytes. -/

namespace Sys2Proof.Machine

/-- Settles O51: the OR of the bytewise differences is zero exactly where no byte differs. -/
theorem tagComparisonIsEquality : Obligations.TagComparisonIsEquality := tagEq_iff_eq

/-- TRUNC to a length within a longer one can be taken of the longer tag (R191). -/
theorem trunc_take (t : Block) {n m : Nat} (shorter : n ≤ m) : (trunc t m).take n = trunc t n := by
  rw [trunc, trunc, firstBytes, firstBytes, List.take_take, Nat.min_eq_left shorter]

/-- A shorter tag of an operation is the beginning of a longer one (R195). -/
theorem operationTag_take (enc : Block → Block) (s : State) {n m : Nat} (shorter : n ≤ m) :
    (operationTag enc m s).take n = operationTag enc n s :=
  trunc_take _ shorter

/-- An Encrypt operation reads no operand in FINISH (30_encoding.md R79), so no bound refuses it. -/
theorem operandsFit_finish_encrypt (s : State) (n : Nat) (hd : s.dir = .encrypt) :
    s.operandsFit (.finish n) = true := by
  simp [State.operandsFit, operandsOf, hd]

/-- FINISH of an Encrypt operation with a legal length puts out the tag of that length
(43_context_commands.md R176). -/
theorem exec_finish_encrypt (s : State) (n : Nat) (handle : KeyHandle)
    (active : s.ctxState = .active) (bound : s.kh = some handle) (hd : s.dir = .encrypt)
    (legal : tagLenOk n = true) :
    exec (.finish n) s =
      .next ((endOperation s).respond .ok [] (operationTag (Config.bcEnc handle) n s)) := by
  have noTag : s.dir = .decrypt → s.chan.tagin.length = n := by simp [hd]
  rw [exec_finish_of_active s n handle (operandsFit_finish_encrypt s n hd) active legal noTag bound,
    finishEffect_encrypt _ n s hd]

/-- Settles O52: both lengths are legal, and the shorter tag is the beginning of the longer. -/
theorem truncationConsistency : Obligations.TruncationConsistency := by
  intro s handle n active bound hd low high
  have short := exec_finish_encrypt s n handle active bound hd ((tagLenOk_iff n).mpr ⟨low, high⟩)
  have long := exec_finish_encrypt s 16 handle active bound hd (by decide)
  refine ⟨_, _, operationTag (Config.bcEnc handle) 16 s, short, long, rfl,
    operationTag_length _ 16 s le_rfl, ?_⟩
  rw [operationTag_take _ s high]
  rfl

end Sys2Proof.Machine
end

section
/-! PROOFS. The statuses (60_exceptions.md R201 to R205): their numbers, which of them wins, and
what a command that answers one of them leaves. -/

namespace Sys2Proof.Machine

/-! ### The numbers (R201) -/

/-- The status a host reads off a status code; 6 to 15 are the code of none (R201). -/
def Status.ofCode (code : BitVec 4) : Option Status :=
  match code.toNat with
  | 0 => some .ok
  | 1 => some .invalidKeyLength
  | 2 => some .invalidState
  | 3 => some .invalidTagLength
  | 4 => some .authenticationFailure
  | 5 => some .illegalCommand
  | _ => none

@[simp] theorem Status.ofCode_code (st : Status) : Status.ofCode st.code = some st := by
  cases st <;> rfl

theorem Status.code_lt_six (st : Status) : st.code.toNat < 6 := by
  cases st <;> decide

/-- Settles O23: the codes can be read back, so no two are the same. -/
theorem statusNumbers : Obligations.StatusNumbers := by
  refine ⟨rfl, rfl, rfl, rfl, rfl, rfl, Status.code_lt_six, fun a b same => ?_⟩
  have readBack := congrArg Status.ofCode same
  simpa using readBack

/-! ### How a command ends (R200, R202) -/

/-- How an instruction on the state `s` ends: rejected with no register written, as the FINISH of a
Decrypt operation whose tag differs, or with OK. -/
inductive EndsWith (i : Instr) (s : State) : State → Response → Prop
  | rejected (status : Status) (notOk : status ≠ .ok)
      (notTag : status ≠ .authenticationFailure) :
      EndsWith i s (s.fail status) ⟨status, [], []⟩
  | mismatched (active : s.ctxState = .active) (differs : tagDiffers i s) :
      EndsWith i s ((endOperation s).respond .authenticationFailure [] [])
        ⟨.authenticationFailure, [], []⟩
  | completed {t : State} {r : Response} (ok : r.status = .ok) : EndsWith i s t r

theorem endsWith_fail {i : Instr} {s : State} {r : Response} {status : Status}
    (notOk : status ≠ .ok) (notTag : status ≠ .authenticationFailure)
    (answer : (s.fail status).resp = some r) : EndsWith i s (s.fail status) r := by
  cases answer; exact .rejected status notOk notTag

theorem endsWith_invalidState {i : Instr} {s : State} {r : Response}
    (answer : (s.fail .invalidState).resp = some r) : EndsWith i s (s.fail .invalidState) r :=
  endsWith_fail nofun nofun answer

/-- A FINISH that passes its checks ends with OK, or as a Decrypt operation whose tag differs
(43_context_commands.md R176). -/
theorem endsWith_finishEffect {n : Nat} {handle : KeyHandle} {s : State} {r : Response}
    (active : s.ctxState = .active) (legal : tagLenOk n = true)
    (same : s.dir = .decrypt → s.chan.tagin.length = n) (bound : s.kh = some handle)
    (answer : (finishEffect (Config.bcEnc handle) n s).resp = some r) :
    EndsWith (.finish n) s (finishEffect (Config.bcEnc handle) n s) r := by
  obtain ⟨-, high⟩ := (tagLenOk_iff n).mp legal
  cases hd : s.dir with
  | encrypt =>
    rw [finishEffect_encrypt _ n s hd] at answer
    cases answer; exact .completed rfl
  | decrypt =>
    rw [finishEffect_decrypt _ n s hd high (same hd)] at answer ⊢
    split_ifs at answer ⊢ with agree
    · cases answer; exact .completed rfl
    · cases answer; exact .mismatched active ⟨n, handle, rfl, hd, bound, agree⟩

/-- Every answered instruction ends in one of the ways of `EndsWith`. -/
theorem endsWith_of_exec {i : Instr} {s t : State} {r : Response} (run : exec i s = .next t)
    (answer : t.resp = some r) : EndsWith i s t r := by
  cases i with
  | bindKey =>
    obtain ⟨-, rfl⟩ | ⟨-, -, rfl⟩ | ⟨-, -, rfl⟩ := execBindKey_cases run
    · exact endsWith_invalidState answer
    · exact endsWith_fail nofun nofun answer
    · cases answer; exact .completed rfl
  | startEnc =>
    obtain ⟨-, rfl⟩ | ⟨-, rfl⟩ := execStartEnc_cases run
    · exact endsWith_invalidState answer
    · cases answer; exact .completed rfl
  | startDec =>
    obtain ⟨-, rfl⟩ | ⟨-, rfl⟩ := execStartDec_cases run
    · exact endsWith_invalidState answer
    · cases answer; exact .completed rfl
  | update =>
    obtain ⟨-, rfl⟩ | ⟨-, handle, -, rfl⟩ := execUpdate_cases run
    · exact endsWith_invalidState answer
    · cases answer; exact .completed rfl
  | finish n =>
    obtain ⟨-, rfl⟩ | ⟨-, -, rfl⟩ | ⟨active, legal, same, handle, bound, rfl⟩ :=
      execFinish_cases run
    · exact endsWith_invalidState answer
    · exact endsWith_fail nofun nofun answer
    · exact endsWith_finishEffect active legal same bound answer

/-- A step on a command rejects its word, or ends as its instruction does (30_encoding.md R77,
R78). -/
theorem step_command_ends {s t : State} {c : Command} {rest : List Event} {r : Response}
    (pend : s.pending = .command c :: rest) (run : step s = .next t) (answer : t.resp = some r) :
    (t = (s.accept c rest).fail .illegalCommand ∧ r = ⟨.illegalCommand, [], []⟩) ∨
    ∃ i, decode c.word = .ok i ∧ EndsWith i (s.accept c rest) t r := by
  rw [step_of_command pend] at run
  cases word : decode c.word with
  | error why =>
    rw [runWord_of_error _ word] at run
    cases run; cases answer; exact .inl ⟨rfl, rfl⟩
  | ok i => exact .inr ⟨i, rfl, endsWith_of_exec ((runWord_of_ok _ word).symm.trans run) answer⟩

/-- Settles O26: of the ends of a command only the rejections have these statuses. -/
theorem rejectedCommandWritesNoRegister : Obligations.RejectedCommandWritesNoRegister := by
  intro s t c rest r pend run answer rejected
  obtain ⟨rfl, rfl⟩ | ⟨i, -, ends⟩ := step_command_ends pend run answer
  · exact ⟨sameRegisters_accept_fail s c rest _, rfl, rfl⟩
  · cases ends with
    | rejected status => exact ⟨sameRegisters_accept_fail s c rest status, rfl, rfl⟩
    | mismatched => simp at rejected
    | completed ok => simp [ok] at rejected

/-- Settles O27: of the ends of a command only that of a FINISH in Decrypt has this status. -/
theorem authenticationFailureIsCompletedFinish :
    Obligations.AuthenticationFailureIsCompletedFinish := by
  intro s t c rest r pend run answer failed
  obtain ⟨-, rfl⟩ | ⟨i, word, ends⟩ := step_command_ends pend run answer
  · cases failed
  · cases ends with
    | rejected status _ notTag => exact absurd failed notTag
    | mismatched active differs =>
      obtain ⟨n, handle, rfl, decrypting, -, -⟩ := differs
      exact ⟨active, decrypting, ⟨n, word⟩, rfl, by constructor <;> rfl, rfl, rfl, rfl, rfl⟩
    | completed ok => simp [ok] at failed

/-! ### Which status wins (R203) -/

/-- The operand check of BIND_KEY fails with InvalidKeyLength alone (R202). -/
theorem of_operandError_bindKey {s : State} {e : Status}
    (failed : operandError .bindKey s = some e) :
    keyLenOk s.chan.key.length = false ∧ e = .invalidKeyLength := by
  constructor
  · rw [← Bool.not_eq_true, ← operandError_bindKey_eq_none_iff, failed]
    nofun
  · simp only [operandError] at failed
    split_ifs at failed
    exact (Option.some.inj failed).symm

/-- The operand checks of FINISH fail with InvalidTagLength alone (R202). -/
theorem of_operandError_finish {n : Nat} {s : State} {e : Status}
    (failed : operandError (.finish n) s = some e) :
    (tagLenOk n = false ∨ (s.dir = .decrypt ∧ s.chan.tagin.length ≠ n)) ∧
      e = .invalidTagLength := by
  constructor
  · by_contra passes
    have checked := (operandError_finish_eq_none_iff n s).mpr (by simpa using passes)
    simp [checked] at failed
  · simp only [operandError] at failed
    split_ifs at failed <;> exact (Option.some.inj failed).symm

/-- A legal command that fails its operand check answers the status of that check (R203). -/
theorem exec_of_operandError {i : Instr} {s : State} {e : Status}
    (fits : s.operandsFit i = true) (legal : legalIn i s.ctxState = true)
    (failed : operandError i s = some e) : exec i s = .next (s.fail e) := by
  cases i with
  | bindKey =>
    have idle : s.ctxState ≠ .active :=
      of_decide_eq_true ((legalIn_bindKey _).symm.trans legal)
    obtain ⟨len, rfl⟩ := of_operandError_bindKey failed
    exact exec_bindKey_of_keyLen s fits idle len
  | startEnc => cases failed
  | startDec => cases failed
  | update => cases failed
  | finish n =>
    have active : s.ctxState = .active :=
      of_decide_eq_true ((legalIn_finish n _).symm.trans legal)
    obtain ⟨bad, rfl⟩ := of_operandError_finish failed
    exact exec_finish_of_tagLen s n fits active bad

/-- A legal command whose operands pass their checks and whose supplied tag differs answers
AuthenticationFailure (R203). -/
theorem exec_of_tagDiffers {i : Instr} {s : State} (fits : s.operandsFit i = true)
    (legal : legalIn i s.ctxState = true) (checked : operandError i s = none)
    (differs : tagDiffers i s) :
    ∃ t, exec i s = .next t ∧ t.resp = some ⟨.authenticationFailure, [], []⟩ := by
  obtain ⟨n, handle, rfl, hd, bound, differ⟩ := differs
  have active : s.ctxState = .active :=
    of_decide_eq_true ((legalIn_finish n _).symm.trans legal)
  obtain ⟨len, same⟩ := (operandError_finish_eq_none_iff n s).mp checked
  obtain ⟨t, run, answer, -⟩ :=
    exec_finish_rejects s n handle fits active bound hd len (same hd) differ
  exact ⟨t, run, answer⟩

/-- A legal command whose operands pass their checks answers OK unless its tag differs: the table
leaves only OK and AuthenticationFailure, and the latter has one cause (R160, R203). -/
theorem exec_of_not_tagDiffers {i : Instr} {s : State} (fits : s.operandsFit i = true)
    (inv : Inv s) (legal : legalIn i s.ctxState = true) (checked : operandError i s = none)
    (agrees : ¬ tagDiffers i s) :
    ∃ t r, exec i s = .next t ∧ t.resp = some r ∧ r.status = .ok := by
  obtain ⟨t, r, run, answer, -, status⟩ := exec_leads_to_target i s fits inv legal checked
  refine ⟨t, r, run, answer, ?_⟩
  cases endsWith_of_exec run answer with
  | rejected _ notOk notTag => exact status.resolve_right fun ⟨failed, _⟩ => notTag failed
  | mismatched _ differs => exact absurd differs agrees
  | completed ok => exact ok

/-- An instruction answers the first status that applies (R203). -/
theorem exec_first_status (i : Instr) (s : State) (fits : s.operandsFit i = true) (inv : Inv s) :
    ∃ t r, exec i s = .next t ∧ t.resp = some r ∧
      (legalIn i s.ctxState = false → r.status = .invalidState) ∧
      (legalIn i s.ctxState = true → ∀ e, operandError i s = some e → r.status = e) ∧
      (legalIn i s.ctxState = true → operandError i s = none → tagDiffers i s →
        r.status = .authenticationFailure) ∧
      (legalIn i s.ctxState = true → operandError i s = none → ¬ tagDiffers i s →
        r.status = .ok) := by
  cases legal : legalIn i s.ctxState with
  | false =>
    exact ⟨_, _, exec_of_illegal i s fits legal, rfl, fun _ => rfl, nofun, nofun, nofun⟩
  | true =>
    cases checked : operandError i s with
    | some e =>
      have run := exec_of_operandError fits legal checked
      exact ⟨_, _, run, rfl, nofun, fun _ _ => Option.some.inj, nofun, nofun⟩
    | none =>
      by_cases differs : tagDiffers i s
      · obtain ⟨t, run, answer⟩ := exec_of_tagDiffers fits legal checked differs
        exact ⟨t, _, run, answer, nofun, nofun, fun _ _ _ => rfl,
          fun _ _ agrees => absurd differs agrees⟩
      · obtain ⟨t, r, run, answer, ok⟩ := exec_of_not_tagDiffers fits inv legal checked differs
        exact ⟨t, r, run, answer, nofun, nofun, fun _ _ differ => absurd differ differs,
          fun _ _ _ => ok⟩

/-- Settles O25: a word that does not decode is answered before its state is looked at, and an
instruction by `exec_first_status`. -/
theorem statusPrecedence : Obligations.StatusPrecedence := by
  rintro s p c rest inv pend rfl fits
  rw [step_of_command pend]
  cases word : decode c.word with
  | error why =>
    exact ⟨_, _, runWord_of_error _ word, rfl, fun _ => rfl, nofun⟩
  | ok i =>
    have accepted : Inv (s.accept c rest) := inv_congr inv (accept_sameRegisters s c rest)
    obtain ⟨t, r, run, answer, precedence⟩ :=
      exec_first_status i (s.accept c rest) (fits i word) accepted
    refine ⟨t, r, (runWord_of_ok _ word).trans run, answer,
      fun illegal => absurd rfl (illegal i), ?_⟩
    rintro _ ⟨⟩
    exact precedence

end Sys2Proof.Machine
end

section
/-! PROOFS. Hardware reset and overlapping commands (70_reset_and_hazards.md R230, R231, R240): the
state after reset is one that taking a reset leaves, so what the laws say of `State.takeReset` holds
of it. -/

namespace Sys2Proof.Machine

/-- Sixteen 0x00 bytes, read as a list (10_state.md R30, R33). -/
theorem zeroBuf_toList : zeroBuf.toList = List.replicate 16 0x00#8 := by
  rw [zeroBuf, Vector.toList_replicate]

/-- A reset taken right after reset, with nothing behind it, changes nothing. -/
theorem takeReset_reset : State.reset.takeReset [] = State.reset := rfl

/-- After reset the operation registers hold their cleared values (R33, R230). -/
theorem reset_opCleared : OpCleared State.reset :=
  takeReset_reset ▸ takeReset_opCleared State.reset []

/-- After reset no key is bound (R23, R230). -/
theorem reset_keyInv : KeyInv State.reset :=
  takeReset_reset ▸ takeReset_keyInv State.reset []

/-- Settles O1: the context state and the key registers stand in `State.reset`, and the operation
registers are cleared. -/
theorem resetLeavesEveryRegisterAtItsValue : Obligations.ResetLeavesEveryRegisterAtItsValue := by
  obtain ⟨dir, j0, ctr, ksBuf, ksPos, y, ghBuf, ghFill, aadBits, ctBits⟩ := reset_opCleared
  have buffer : State.reset.ghBuf.toList = List.replicate 16 0x00#8 := by
    rw [ghBuf, zeroBuf_toList]
  exact ⟨rfl, rfl, rfl, dir, j0, ctr, ksBuf, ksPos, y, buffer, ghFill, aadBits, ctBits⟩

/-- Settles O30: after reset no operation is in progress and no key is bound. -/
theorem resetMeetsTheInvariant : Obligations.ResetMeetsTheInvariant :=
  inv_of_opCleared reset_keyInv (by simp [State.reset]) reset_opCleared

/-- With a reset at the port the step takes it, whatever command it cuts short (R231). -/
theorem step_of_hardwareReset {s : State} {cut : Option Command} {rest : List Event}
    (pend : s.pending = .hardwareReset cut :: rest) : step s = .next (s.takeReset rest) := by
  simp only [step, pend]

/-- Taking a reset leaves every register as it is after reset, whatever stood there (R231). -/
theorem takeReset_sameRegisters (s : State) (rest : List Event) :
    SameRegisters State.reset (s.takeReset rest) := by
  constructor <;> rfl

/-- Settles O2: the step takes the reset. -/
theorem hardwareResetFromAnyState : Obligations.HardwareResetFromAnyState := by
  intro s cut rest pend
  exact ⟨s.takeReset rest, step_of_hardwareReset pend, takeReset_sameRegisters s rest,
    s.takeReset_resp rest, s.takeReset_pending rest, s.takeReset_maxOperandBytes rest⟩

/-- Settles O4: `step` has no next state for two commands that overlap. -/
theorem overlappingCommandsRefused : Obligations.OverlappingCommandsRefused := by
  intro s first second rest pend
  simp only [step, pend]

end Sys2Proof.Machine
end
